-- ==== Sys2Proof/Word.lean ====
section
/-! DEFINITION. The word types of the machine.

The names follow 00_scope.md rules R6 and R8: registers of 8 bits, addresses and instruction words of
16 bits, address fields of 12 bits. Every value is unsigned (R8), so nothing here is read as signed. -/

namespace Sys2Proof

/-- An 8-bit value: a general register, a timer, a memory byte, an immediate `kk` (R6 V_WIDTH). -/
abbrev Byte := BitVec 8

/-- A 16-bit value: PC, I, a stack slot, an instruction word (R6 PC_WIDTH, I_WIDTH, STACK_SLOT_WIDTH). -/
abbrev Word := BitVec 16

/-- The 12-bit address field `nnn` (R57). -/
abbrev Addr12 := BitVec 12

/-- A 4-bit field of an instruction word (R12 "Nibble"). -/
abbrev Nibble := BitVec 4

/-- The index of a general register, 0 to 15, so that `V[r]` always exists (R15, R59). -/
abbrev Reg := Fin 16

/-- The index of a key, 0 to 15 (R6 NUM_KEYS, R141). -/
abbrev Key := Fin 16

/-- Register VF, which doubles as the flag register (R16). -/
abbrev VF : Reg := 15

/-- Register V0, the fixed offset register of `Bnnn` (R84). -/
abbrev V0 : Reg := 0

end Sys2Proof
end

