-- ==== Sys2Proof/Config.lean ====
section
/-! DEFINITION. What is fixed for a machine (00_scope.md rule R6), what its environment supplies to a
cycle (40_cycle.md rule R70), and the free value the model takes where the environment is unconstrained. -/

namespace Sys2Proof.Config

/-- MEM_SIZE: the number of bytes of memory, addresses 0x000 to 0xFFF (R6, R38). -/
def memSize : Nat := 0x1000

/-- PROGRAM_BASE: where a program image is loaded and where execution begins (R6, R48). -/
def programBase : Nat := 0x200

/-- MAX_PROGRAM_SIZE: MEM_SIZE - PROGRAM_BASE = 3584 bytes (R6, R48). -/
def maxProgramSize : Nat := memSize - programBase

/-- The two OPEN parameters of R6, FONT_BASE and FONT_DATA.

`base` is the address of glyph 0. Its type is the constraint FONT_BASE + 80 <= 0x200 of R45: the 433
values 0 to 432 are exactly those that meet it. `data` is the 80 bytes, five for each of 16 glyphs (R44). -/
structure Font where
  base : Fin 433
  data : Vector Byte 80
  deriving DecidableEq, Repr

/-- The answer of the frontend to the key wait of `Fx0A` (R70, R141). -/
inductive WaitAnswer where
  /-- A key was pressed; its index is 0 to 15 by R141. -/
  | key (k : Key)
  /-- The wait was cancelled by a quit. -/
  | abort
  /-- No key yet. -/
  | pending
  deriving DecidableEq, Repr, Inhabited

/-- The inputs of one cycle, all drawn by the environment (R70, R138 to R143). -/
structure CycleInput where
  /-- Has 1/60 s elapsed since the last tick (R77, R143)? -/
  tick    : Bool
  /-- The byte the random generator returns, consumed only by `Cxkk` (R142). -/
  rnd     : Byte
  /-- The answer to the key wait, consumed only by `Fx0A` (R141). -/
  wait    : WaitAnswer
  /-- The snapshot `refresh_input` leaves: which of the 16 keys are down (R75, R140). -/
  keysNew : Vector Bool 16
  /-- What `refresh_input` returns: was a quit requested (R140)? -/
  quit    : Bool
  deriving DecidableEq, Repr, Inhabited

/-- The free inputs. R140 to R143 put no law on what the environment supplies ("any value: a free input"),
so for the cycles whose inputs a state does not list, the inputs are this constant without a body, applied
to the state's count of input records used. Nothing can be proved about its values (log entry 4). -/
opaque freeInput : Nat → CycleInput

end Sys2Proof.Config
end

