-- ==== Sys2Proof/Syntax.lean ====
section
/-! DEFINITION. The instructions: one constructor for each of the 34 rows of the opcode map
(30_encoding.md rule R61), with the fields its format names (R57, R58). -/

namespace Sys2Proof

/-- An instruction. Fields are bounded by their types (R57, R59), so every term is an instruction of R61.
`shr` and `shl` carry the field `y` although no part of their operation reads it (R65, R98, R100): it is
part of the word, and an encoder must give it back. -/
inductive Instr where
  /-- `00E0` CLS (R115). -/
  | cls
  /-- `00EE` RET (R81). -/
  | ret
  /-- `1nnn` JP nnn (R82). -/
  | jp (nnn : Addr12)
  /-- `2nnn` CALL nnn (R83). -/
  | call (nnn : Addr12)
  /-- `3xkk` SE Vx, kk (R85). -/
  | seImm (x : Reg) (kk : Byte)
  /-- `4xkk` SNE Vx, kk (R86). -/
  | sneImm (x : Reg) (kk : Byte)
  /-- `5xy0` SE Vx, Vy (R87). -/
  | seReg (x y : Reg)
  /-- `6xkk` LD Vx, kk (R90). -/
  | ldImm (x : Reg) (kk : Byte)
  /-- `7xkk` ADD Vx, kk (R91). -/
  | addImm (x : Reg) (kk : Byte)
  /-- `8xy0` LD Vx, Vy (R92). -/
  | ldReg (x y : Reg)
  /-- `8xy1` OR Vx, Vy (R93). -/
  | orReg (x y : Reg)
  /-- `8xy2` AND Vx, Vy (R94). -/
  | andReg (x y : Reg)
  /-- `8xy3` XOR Vx, Vy (R95). -/
  | xorReg (x y : Reg)
  /-- `8xy4` ADD Vx, Vy (R96). -/
  | addReg (x y : Reg)
  /-- `8xy5` SUB Vx, Vy (R97). -/
  | sub (x y : Reg)
  /-- `8xy6` SHR Vx (R98). -/
  | shr (x y : Reg)
  /-- `8xy7` SUBN Vx, Vy (R99). -/
  | subn (x y : Reg)
  /-- `8xyE` SHL Vx (R100). -/
  | shl (x y : Reg)
  /-- `9xy0` SNE Vx, Vy (R88). -/
  | sneReg (x y : Reg)
  /-- `Annn` LD I, nnn (R104). -/
  | ldI (nnn : Addr12)
  /-- `Bnnn` JP V0, nnn (R84). -/
  | jpV0 (nnn : Addr12)
  /-- `Cxkk` RND Vx, kk (R101). -/
  | rnd (x : Reg) (kk : Byte)
  /-- `Dxyn` DRW Vx, Vy, n (R116); `n` is a count, 0 to 15 (R59). -/
  | drw (x y : Reg) (n : Fin 16)
  /-- `Ex9E` SKP Vx (R118). -/
  | skp (x : Reg)
  /-- `ExA1` SKNP Vx (R119). -/
  | sknp (x : Reg)
  /-- `Fx07` LD Vx, DT (R120). -/
  | ldVxDT (x : Reg)
  /-- `Fx0A` LD Vx, K (R121). -/
  | ldVxK (x : Reg)
  /-- `Fx15` LD DT, Vx (R122). -/
  | ldDTVx (x : Reg)
  /-- `Fx18` LD ST, Vx (R123). -/
  | ldSTVx (x : Reg)
  /-- `Fx1E` ADD I, Vx (R105). -/
  | addI (x : Reg)
  /-- `Fx29` LD F, Vx (R106). -/
  | ldF (x : Reg)
  /-- `Fx33` LD B, Vx (R107). -/
  | ldB (x : Reg)
  /-- `Fx55` LD [I], Vx (R108). -/
  | ldMemVx (x : Reg)
  /-- `Fx65` LD Vx, [I] (R109). -/
  | ldVxMem (x : Reg)
  deriving DecidableEq, Repr

end Sys2Proof
end

