-- ==== Sys2Proof/WellFormed.lean ====
section
/-! DEFINITION. The checks on what the outside world hands to the machine: instruction words and program
images.

A term of `Instr` needs no check of its own: each field has the width of R57 as its type. What can be
ill-formed is a 16-bit word (R62) and an image (R48). The opcode map stands here as the table of R61,
apart from the decoder, which is written from the decode tree of R60, so that each can be held against
the other. -/

namespace Sys2Proof

/-- One row of the opcode map R61: a word `w` is the instruction when `w &&& mask = bits`. -/
structure OpcodeRow where
  pattern : String
  bits    : Word
  mask    : Word
  deriving DecidableEq, Repr

/-- The rows of R61 for groups 0 to 7. -/
def opcodeRowsLow : List OpcodeRow :=
  [⟨"00E0", 0x00E0, 0xFFFF⟩, ⟨"00EE", 0x00EE, 0xFFFF⟩, ⟨"1nnn", 0x1000, 0xF000⟩, ⟨"2nnn", 0x2000, 0xF000⟩,
   ⟨"3xkk", 0x3000, 0xF000⟩, ⟨"4xkk", 0x4000, 0xF000⟩, ⟨"5xy0", 0x5000, 0xF00F⟩, ⟨"6xkk", 0x6000, 0xF000⟩,
   ⟨"7xkk", 0x7000, 0xF000⟩]

/-- The rows of R61 for group 8. -/
def opcodeRowsEight : List OpcodeRow :=
  [⟨"8xy0", 0x8000, 0xF00F⟩, ⟨"8xy1", 0x8001, 0xF00F⟩, ⟨"8xy2", 0x8002, 0xF00F⟩, ⟨"8xy3", 0x8003, 0xF00F⟩,
   ⟨"8xy4", 0x8004, 0xF00F⟩, ⟨"8xy5", 0x8005, 0xF00F⟩, ⟨"8xy6", 0x8006, 0xF00F⟩, ⟨"8xy7", 0x8007, 0xF00F⟩,
   ⟨"8xyE", 0x800E, 0xF00F⟩]

/-- The rows of R61 for groups 9 to E. -/
def opcodeRowsHigh : List OpcodeRow :=
  [⟨"9xy0", 0x9000, 0xF00F⟩, ⟨"Annn", 0xA000, 0xF000⟩, ⟨"Bnnn", 0xB000, 0xF000⟩, ⟨"Cxkk", 0xC000, 0xF000⟩,
   ⟨"Dxyn", 0xD000, 0xF000⟩, ⟨"Ex9E", 0xE09E, 0xF0FF⟩, ⟨"ExA1", 0xE0A1, 0xF0FF⟩]

/-- The rows of R61 for group F. -/
def opcodeRowsF : List OpcodeRow :=
  [⟨"Fx07", 0xF007, 0xF0FF⟩, ⟨"Fx0A", 0xF00A, 0xF0FF⟩, ⟨"Fx15", 0xF015, 0xF0FF⟩, ⟨"Fx18", 0xF018, 0xF0FF⟩,
   ⟨"Fx1E", 0xF01E, 0xF0FF⟩, ⟨"Fx29", 0xF029, 0xF0FF⟩, ⟨"Fx33", 0xF033, 0xF0FF⟩, ⟨"Fx55", 0xF055, 0xF0FF⟩,
   ⟨"Fx65", 0xF065, 0xF0FF⟩]

/-- The opcode map, in the order of R61: 34 rows. -/
def opcodeTable : List OpcodeRow :=
  opcodeRowsLow ++ opcodeRowsEight ++ opcodeRowsHigh ++ opcodeRowsF

/-- Does the row match the word (R61)? -/
def OpcodeRow.matches (row : OpcodeRow) (w : Word) : Bool :=
  w &&& row.mask == row.bits

/-- A word is legal when a row of the opcode map matches it; every other word is illegal (R61, R62). -/
def wordLegal (w : Word) : Bool :=
  opcodeTable.any (·.matches w)

/-- An image fits when its length is at most MAX_PROGRAM_SIZE (R48). -/
def imageFits (image : List Byte) : Bool :=
  decide (image.length ≤ Config.maxProgramSize)

end Sys2Proof
end

