-- ==== Sys2Proof/Decode.lean ====
section
/-! DEFINITION. The decoder (30_encoding.md rule R60) and, after it, the encoder (rules R57, R58, R61).

Decoding reads nothing but the word and is total: a word names one instruction or is rejected as
`unknownOpcode` (R60). Bytes are taken big-endian, the high byte first (R41, R56). -/

namespace Sys2Proof

/-- Why bytes are not an instruction. -/
inductive DecodeError where
  /-- No case of R60 matches the word, which is recorded whole (R62). -/
  | unknownOpcode (w : Word)
  /-- Fewer than the two bytes of an instruction (R56) were given. The fetch of a cycle never gives these. -/
  | truncated
  deriving DecidableEq, Repr

/-- A 4-bit field as a register index or count (R59). -/
def regOf (b : Nibble) : Reg := ⟨b.toNat, b.isLt⟩

/-- A register index or count as the 4 bits that stand for it. -/
def bitsOf (r : Reg) : Nibble := BitVec.ofNat 4 r.val

/-- `op`, w[15:12] (R57). -/
def fieldOp (w : Word) : Nibble := w.extractLsb' 12 4

/-- `x`, w[11:8] (R57). -/
def fieldX (w : Word) : Reg := regOf (w.extractLsb' 8 4)

/-- `y`, w[7:4] (R57). -/
def fieldY (w : Word) : Reg := regOf (w.extractLsb' 4 4)

/-- `n`, w[3:0] (R57). -/
def fieldN (w : Word) : Nibble := w.extractLsb' 0 4

/-- `kk`, w[7:0] (R57). -/
def fieldKK (w : Word) : Byte := w.extractLsb' 0 8

/-- `nnn`, w[11:0] (R57). -/
def fieldNNN (w : Word) : Addr12 := w.extractLsb' 0 12

/-- Group 8 dispatches on `n` (R60). -/
def decodeEight (w : Word) : Except DecodeError Instr :=
  match fieldN w with
  | 0x0#4 => .ok (.ldReg (fieldX w) (fieldY w))
  | 0x1#4 => .ok (.orReg (fieldX w) (fieldY w))
  | 0x2#4 => .ok (.andReg (fieldX w) (fieldY w))
  | 0x3#4 => .ok (.xorReg (fieldX w) (fieldY w))
  | 0x4#4 => .ok (.addReg (fieldX w) (fieldY w))
  | 0x5#4 => .ok (.sub (fieldX w) (fieldY w))
  | 0x6#4 => .ok (.shr (fieldX w) (fieldY w))
  | 0x7#4 => .ok (.subn (fieldX w) (fieldY w))
  | 0xE#4 => .ok (.shl (fieldX w) (fieldY w))
  | _ => .error (.unknownOpcode w)

/-- Group E dispatches on `kk` (R60). -/
def decodeE (w : Word) : Except DecodeError Instr :=
  match fieldKK w with
  | 0x9E#8 => .ok (.skp (fieldX w))
  | 0xA1#8 => .ok (.sknp (fieldX w))
  | _ => .error (.unknownOpcode w)

/-- Group F dispatches on `kk` (R60). -/
def decodeF (w : Word) : Except DecodeError Instr :=
  match fieldKK w with
  | 0x07#8 => .ok (.ldVxDT (fieldX w))
  | 0x0A#8 => .ok (.ldVxK (fieldX w))
  | 0x15#8 => .ok (.ldDTVx (fieldX w))
  | 0x18#8 => .ok (.ldSTVx (fieldX w))
  | 0x1E#8 => .ok (.addI (fieldX w))
  | 0x29#8 => .ok (.ldF (fieldX w))
  | 0x33#8 => .ok (.ldB (fieldX w))
  | 0x55#8 => .ok (.ldMemVx (fieldX w))
  | 0x65#8 => .ok (.ldVxMem (fieldX w))
  | _ => .error (.unknownOpcode w)

/-- The decode tree of R60. Group 0 dispatches on the whole word; groups 5 and 9 also check `n = 0`
(R64, 90_conflicts.md C5). The sixteen cases are all the values of `op`, so the last arm is never taken. -/
def decode (w : Word) : Except DecodeError Instr :=
  match fieldOp w with
  | 0x0#4 =>
    if w = 0x00E0#16 then .ok .cls
    else if w = 0x00EE#16 then .ok .ret
    else .error (.unknownOpcode w)
  | 0x1#4 => .ok (.jp (fieldNNN w))
  | 0x2#4 => .ok (.call (fieldNNN w))
  | 0x3#4 => .ok (.seImm (fieldX w) (fieldKK w))
  | 0x4#4 => .ok (.sneImm (fieldX w) (fieldKK w))
  | 0x5#4 => if fieldN w = 0x0#4 then .ok (.seReg (fieldX w) (fieldY w)) else .error (.unknownOpcode w)
  | 0x6#4 => .ok (.ldImm (fieldX w) (fieldKK w))
  | 0x7#4 => .ok (.addImm (fieldX w) (fieldKK w))
  | 0x8#4 => decodeEight w
  | 0x9#4 => if fieldN w = 0x0#4 then .ok (.sneReg (fieldX w) (fieldY w)) else .error (.unknownOpcode w)
  | 0xA#4 => .ok (.ldI (fieldNNN w))
  | 0xB#4 => .ok (.jpV0 (fieldNNN w))
  | 0xC#4 => .ok (.rnd (fieldX w) (fieldKK w))
  | 0xD#4 => .ok (.drw (fieldX w) (fieldY w) (regOf (fieldN w)))
  | 0xE#4 => decodeE w
  | 0xF#4 => decodeF w
  | _ => .error (.unknownOpcode w)

/-- A 16-bit word from its two bytes, the high byte first: `Mem[pc] * 256 + Mem[pc+1]` (R41, R56). -/
def wordOfBytes (high low : Byte) : Word := high ++ low

/-- The two bytes of a word in the order memory holds them, the high byte first (R41). -/
def bytesOfWord (w : Word) : List Byte := [w.extractLsb' 8 8, w.extractLsb' 0 8]

/-- Decode the instruction at the head of a byte sequence and give the bytes that follow it (R56). -/
def decodeBytes : List Byte → Except DecodeError (Instr × List Byte)
  | high :: low :: rest =>
    match decode (wordOfBytes high low) with
    | .ok i => .ok (i, rest)
    | .error e => .error e
  | _ => .error .truncated

/-- The instruction the decoder reads from a row of spec/opcode_table.json whose bits are `w`. The one
word of an instruction is bits 15..0, laid out big-endian and given to the decoder; every bit from
`nbits` up is 0. -/
def decodeTableWord (nbits w : Nat) : Option Instr :=
  match decodeBytes (bytesOfWord (BitVec.ofNat 16 (w % 2 ^ nbits))) with
  | .ok (i, _) => some i
  | .error _ => none

/-! ## The encoder -/

/-- Format A: `oooo nnnn nnnn nnnn` (R58). -/
def formatA (op : Nibble) (nnn : Addr12) : Word := op ++ nnn

/-- Format XK: `oooo xxxx kkkk kkkk` (R58). Format XF has the same layout with the function byte in the
place of `kk`. -/
def formatXK (op : Nibble) (x : Reg) (kk : Byte) : Word := op ++ bitsOf x ++ kk

/-- Format XYN: `oooo xxxx yyyy nnnn` (R58). Format XY has the same layout with the function nibble in
the place of `n`. -/
def formatXYN (op : Nibble) (x y : Reg) (n : Nibble) : Word := op ++ bitsOf x ++ bitsOf y ++ n

/-- The word of an instruction, by the opcode map R61 and the formats R58. -/
def encode : Instr → Word
  | .cls => 0x00E0
  | .ret => 0x00EE
  | .jp nnn => formatA 0x1 nnn
  | .call nnn => formatA 0x2 nnn
  | .seImm x kk => formatXK 0x3 x kk
  | .sneImm x kk => formatXK 0x4 x kk
  | .seReg x y => formatXYN 0x5 x y 0x0
  | .ldImm x kk => formatXK 0x6 x kk
  | .addImm x kk => formatXK 0x7 x kk
  | .ldReg x y => formatXYN 0x8 x y 0x0
  | .orReg x y => formatXYN 0x8 x y 0x1
  | .andReg x y => formatXYN 0x8 x y 0x2
  | .xorReg x y => formatXYN 0x8 x y 0x3
  | .addReg x y => formatXYN 0x8 x y 0x4
  | .sub x y => formatXYN 0x8 x y 0x5
  | .shr x y => formatXYN 0x8 x y 0x6
  | .subn x y => formatXYN 0x8 x y 0x7
  | .shl x y => formatXYN 0x8 x y 0xE
  | .sneReg x y => formatXYN 0x9 x y 0x0
  | .ldI nnn => formatA 0xA nnn
  | .jpV0 nnn => formatA 0xB nnn
  | .rnd x kk => formatXK 0xC x kk
  | .drw x y n => formatXYN 0xD x y (bitsOf n)
  | .skp x => formatXK 0xE x 0x9E
  | .sknp x => formatXK 0xE x 0xA1
  | .ldVxDT x => formatXK 0xF x 0x07
  | .ldVxK x => formatXK 0xF x 0x0A
  | .ldDTVx x => formatXK 0xF x 0x15
  | .ldSTVx x => formatXK 0xF x 0x18
  | .addI x => formatXK 0xF x 0x1E
  | .ldF x => formatXK 0xF x 0x29
  | .ldB x => formatXK 0xF x 0x33
  | .ldMemVx x => formatXK 0xF x 0x55
  | .ldVxMem x => formatXK 0xF x 0x65

/-- An instruction is well-formed when its word is legal (R61). The fields' types make every instruction
well-formed; Laws/PerInstr.lean shows it constructor by constructor. -/
def Instr.wellFormed (i : Instr) : Bool := wordLegal (encode i)

end Sys2Proof
end

