-- ==== Sys2Proof/Machine/Font.lean ====
section
/-! DEFINITION. The default values of the two OPEN parameters FONT_BASE and FONT_DATA (00_scope.md rule
R6, 20_memory.md rules R44 and R45).

The source gives neither. The spec names these defaults for its test vectors: the address by decision D7,
the bytes, from general knowledge, by decision D8 (log entry 3). -/

namespace Sys2Proof.Machine

/-- FONT_BASE's default, 0x000 (R45, D7). -/
def defaultFontBase : Fin 433 := 0

/-- FONT_DATA's default: the conventional glyphs 0 to F, five bytes each (R44, D8). -/
def defaultFontData : Vector Byte 80 :=
  #v[0xF0, 0x90, 0x90, 0x90, 0xF0,   0x20, 0x60, 0x20, 0x20, 0x70,
     0xF0, 0x10, 0xF0, 0x80, 0xF0,   0xF0, 0x10, 0xF0, 0x10, 0xF0,
     0x90, 0x90, 0xF0, 0x10, 0x10,   0xF0, 0x80, 0xF0, 0x10, 0xF0,
     0xF0, 0x80, 0xF0, 0x90, 0xF0,   0xF0, 0x10, 0x20, 0x40, 0x40,
     0xF0, 0x90, 0xF0, 0x90, 0xF0,   0xF0, 0x90, 0xF0, 0x10, 0xF0,
     0xF0, 0x90, 0xF0, 0x90, 0x90,   0xE0, 0x90, 0xE0, 0x90, 0xE0,
     0xF0, 0x80, 0x80, 0x80, 0xF0,   0xE0, 0x90, 0x90, 0x90, 0xE0,
     0xF0, 0x80, 0xF0, 0x80, 0xF0,   0xF0, 0x80, 0xF0, 0x80, 0x80]

/-- Both parameters at their defaults. -/
def defaultFont : Config.Font := ⟨defaultFontBase, defaultFontData⟩

end Sys2Proof.Machine
end

