-- ==== Sys2Proof/Machine/State.lean ====
section
/-! DEFINITION. The machine's state (10_state.md rule R37), the failure kinds (60_exceptions.md rule
R125), the reasons a step can stop, and the state after construction (R35).

Field names are the spec's. The fields after `keys` are not in the record of R37: `jump` and `redraw` are
the per-cycle flags of R30, which R35 gives a reset value; `frames`, `inputs` and `used` are the
environment's side of the core's ports; `font` is the configuration of R6. -/

namespace Sys2Proof.Machine

/-- The failure a cycle can raise, with the value it records (R125). -/
inductive FailureKind where
  /-- The fetched word, whole, matches no row of the opcode map (R62). -/
  | unknownOpcode (w : Word)
  /-- `2nnn` with SP = 16 (R83). -/
  | stackOverflow
  /-- `00EE` with SP = 0 (R81). -/
  | stackUnderflow
  /-- The lowest address above 0xFFF that an access needed; an exact integer (R40, D15, D36). -/
  | outOfBounds (a : Nat)
  /-- `Ex9E` or `ExA1` with Vx above 15; the value of Vx (R118, R119, D18). -/
  | keyIndexOutOfRange (k : Byte)
  deriving DecidableEq, Repr

/-- The run state (R29, D37). -/
inductive RunState where
  /-- The default. -/
  | running
  /-- Inside the blocking key wait of `Fx0A`. -/
  | awaitingKey
  /-- `Halted(Quit)`: the frontend has reported quit. -/
  | halted
  /-- `Faulted(kind)`: a cycle has failed. -/
  | faulted (kind : FailureKind)
  deriving DecidableEq, Repr

/-- Memory: the bytes that differ from what construction left, as address and byte pairs with the
addresses strictly rising (log entry 2). Machine/Ops.lean says what an unlisted address reads as. -/
abbrev Memory := List Host.Cell

/-- The display buffer: 32 rows of 64 pixels, `FB[row][col]` (R26). `true` is a pixel that is 1. -/
abbrev Screen := Vector (Vector Bool 64) 32

/-- The whole state (R37). -/
structure State where
  /-- V0 to VF (R15). -/
  V      : Vector Byte 16
  /-- The index register (R20). -/
  I      : Word
  /-- The program counter: until step 6 of a cycle, the address of the instruction itself (R18). -/
  pc     : Word
  /-- The stack pointer, 0 to 16: the next free slot (R21, 90_conflicts.md C1). -/
  SP     : Fin 17
  /-- The sixteen return-address slots (R22). -/
  Stack  : Vector Word 16
  /-- The delay timer (R23). -/
  DT     : Byte
  /-- The sound timer (R24). -/
  ST     : Byte
  /-- Memory (R25). -/
  Mem    : Memory
  /-- The display buffer (R26). -/
  FB     : Screen
  /-- The run state (R29). -/
  run    : RunState
  /-- The key snapshot of the last refresh: is key `k` down (R31)? -/
  keys   : Vector Bool 16
  /-- The cycle's jump flag (R30, R74). -/
  jump   : Bool
  /-- The cycle's redraw flag (R30, R73). -/
  redraw : Bool
  /-- The frames the frontend has been handed through the render port, the newest first (R139). No rule
  reads it: it is the record of what left the core (log entry 6). -/
  frames : List Screen
  /-- The inputs of the next cycles, as far as the environment has fixed them, the next cycle's first
  (R70). For a cycle beyond them the inputs are free (log entry 4). -/
  inputs : List Config.CycleInput
  /-- The model's own counter: how many input records cycles have used. It only selects the free inputs
  (log entry 4). -/
  used   : Nat
  /-- FONT_BASE and FONT_DATA: the configuration, fixed at construction (R6, R37). No rule writes it. -/
  font   : Config.Font
  deriving DecidableEq, Repr

/-- Why there is no next state. Every failure of an instruction is a next state, `Faulted(kind)` (R129);
a step stops only where R69 says that there is no next cycle. -/
inductive Fault where
  /-- Raised by `step` in run state `Halted(Quit)`: "there is no next cycle" (R69). Safe. -/
  | halted
  /-- Raised by `step` in run state `Faulted(kind)`: "there is no next cycle" (R69). Safe. -/
  | failed (kind : FailureKind)
  deriving DecidableEq, Repr

/-- Why an instruction has no meaning. No arm of `exec` answers with it. -/
inductive Refusal where
  /-- An instruction this model gives no meaning yet, by its mnemonic. Safe. -/
  | notModelled (mnemonic : String)
  deriving DecidableEq, Repr

/-- The three outcomes of a step of this machine. -/
abbrev Result := Host.Outcome State Fault Refusal

/-- Construction, the only reset (R35, R147, R149), for any FONT_BASE and FONT_DATA. Memory lists nothing:
an unlisted address reads as construction left it, the font table at FONT_BASE and 0x00 elsewhere. -/
def State.construct (font : Config.Font) : State where
  V      := Vector.replicate 16 0
  I      := 0
  pc     := 0x200
  SP     := 0
  Stack  := Vector.replicate 16 0
  DT     := 0
  ST     := 0
  Mem    := []
  FB     := Vector.replicate 32 (Vector.replicate 64 false)
  run    := .running
  keys   := Vector.replicate 16 false
  jump   := false
  redraw := false
  frames := []
  inputs := []
  used   := 0
  font   := font

/-- The machine right after reset, with the default font (log entries 1, 3 and 4). -/
def State.reset : State := State.construct defaultFont

end Sys2Proof.Machine
end

