-- ==== Sys2Proof/Machine/Ops.lean ====
section
/-! DEFINITION. The named operations over the state (00_scope.md rule R10): registers, memory, stack,
display, keys and inputs, and RAISING A FAILURE, the one operation by which an instruction fails (R129).
There is no return from a failure (60_exceptions.md rule R131), so there is none here. -/

namespace Sys2Proof.Machine

/-! ## Registers (R15, R18, R20, R23, R24) -/

/-- `V[r]`. -/
def State.readV (s : State) (r : Reg) : Byte := s.V[r.val]

/-- `V[r] <- b`. No register is hardwired and a write to one changes no other (R15). -/
def State.writeV (s : State) (r : Reg) (b : Byte) : State := { s with V := s.V.set r.val b }

/-- `I <- w` (R20). -/
def State.writeI (s : State) (w : Word) : State := { s with I := w }

/-- `pc <- a`, with the jump flag left alone. -/
def State.writePc (s : State) (a : Word) : State := { s with pc := a }

/-- `pc <- a; jump <- 1`: a jump, after which step 6 does not add 2 (R74). -/
def State.jumpTo (s : State) (a : Word) : State := { s with pc := a, jump := true }

/-- A skip: `pc <- pc + 2` when the condition holds; step 6 adds the normal 2 (R76, R85). Arithmetic on pc
is mod 2^16 (R19, D14). -/
def State.skipIf (s : State) (c : Bool) : State := if c then { s with pc := s.pc + 2 } else s

/-- `DT <- b` (R23). -/
def State.writeDT (s : State) (b : Byte) : State := { s with DT := b }

/-- `ST <- b` (R24). -/
def State.writeST (s : State) (b : Byte) : State := { s with ST := b }

/-- V[k], V[k+1], … <- the bytes, in ascending order; past VF there is nothing to write. `Fx65` loads V0
to Vx so (R109). -/
def writeRegsFrom (V : Vector Byte 16) (k : Nat) : List Byte → Vector Byte 16
  | [] => V
  | b :: bs => if h : k < 16 then writeRegsFrom (V.set k b) (k + 1) bs else V

/-- V0, V1, … <- the bytes. -/
def State.writeRegs (s : State) (bytes : List Byte) : State := { s with V := writeRegsFrom s.V 0 bytes }

/-! ## Failures (R125, R129) -/

/-- `raise F(info)`: the run ends in `Faulted(kind)` and nothing else changes. Every instruction makes its
checks before any write (R11, D21), so the state is that at the start of the cycle (R129). No vector,
cause register or saved pc exists (R128). -/
def State.raise (s : State) (kind : FailureKind) : State := { s with run := .faulted kind }

/-- Go on with the state an operation gives, or raise the failure its check found in the state before. -/
def State.settle (s : State) : Except FailureKind State → Result
  | .ok t => .next t
  | .error kind => .next (s.raise kind)

/-! ## Memory (R38 to R55) -/

/-- The font table's byte at an address, 0 outside it (R44, R45). -/
def fontByte (font : Config.Font) (a : Nat) : Byte :=
  if h : font.base.val ≤ a ∧ a < font.base.val + 80 then font.data[a - font.base.val] else 0

/-- What an address that memory does not list reads as: what construction left there, FONT_DATA at
FONT_BASE and 0x00 everywhere else (R35, R49). The first test only spares the second from being looked
at, since the font lies below 0x200 (R45). -/
def unlistedByte (font : Config.Font) (a : Nat) : Byte :=
  if Config.programBase ≤ a then 0 else fontByte font a

/-- The byte memory lists at an address, if it lists one. -/
def Memory.find (m : Memory) (a : Nat) : Option Byte :=
  match m with
  | [] => none
  | (b, v) :: rest => if a = b then some v else Memory.find rest a

/-- The byte at an address. -/
def Memory.get (font : Config.Font) (m : Memory) (a : Nat) : Byte :=
  match m.find a with
  | some v => v
  | none => unlistedByte font a

/-- `Mem[a] <- v`, keeping the addresses rising and listing nothing that reads the same unlisted. -/
def Memory.set (font : Config.Font) (m : Memory) (a : Nat) (v : Byte) : Memory :=
  match m with
  | [] => if v = unlistedByte font a then [] else [(a, v)]
  | (b, u) :: rest =>
    if a < b then
      if v = unlistedByte font a then (b, u) :: rest else (a, v) :: (b, u) :: rest
    else if a = b then
      if v = unlistedByte font a then rest else (a, v) :: rest
    else (b, u) :: Memory.set font rest a v

/-- Byte k of the list at address a + k, in ascending order (R41). -/
def Memory.setRange (font : Config.Font) (m : Memory) (a : Nat) : List Byte → Memory
  | [] => m
  | v :: vs => Memory.setRange font (Memory.set font m a v) (a + 1) vs

/-- The entries from here on have addresses from `low` up, strictly rising and inside memory, and none
equals what its address reads as unlisted. -/
def Memory.wfFrom (font : Config.Font) (low : Nat) : Memory → Bool
  | [] => true
  | (a, v) :: rest =>
    decide (low ≤ a) && decide (a < Config.memSize) && (v != unlistedByte font a) &&
      Memory.wfFrom font (a + 1) rest

/-- The canonical form of memory: addresses of memory (R38), strictly rising, nothing listed that reads
the same unlisted. -/
def Memory.wf (font : Config.Font) (m : Memory) : Bool := Memory.wfFrom font 0 m

/-- The byte of the machine's memory at an address, without the bounds check of R40. -/
def State.readByte (s : State) (a : Nat) : Byte := s.Mem.get s.font a

/-- `MemRead(a, 1)` (R40): an address above 0xFFF raises. -/
def State.memRead (s : State) (a : Nat) : Except FailureKind Byte :=
  if a < Config.memSize then .ok (s.readByte a) else .error (.outOfBounds a)

/-- The lowest address above 0xFFF in the range of `len` bytes from `a`, if there is one: max(a, 0x1000)
(R40, R108). Addresses are exact integers and do not wrap (D15). An empty range has none (R55). -/
def lowestOutOfBounds (a len : Nat) : Option Nat :=
  if len = 0 ∨ a + len ≤ Config.memSize then none else some (max a Config.memSize)

/-- `read_range(a, len)` (R55): the bytes at a, a+1, …, or OutOfBounds at the lowest address above 0xFFF
before anything is returned. -/
def State.readRange (s : State) (a len : Nat) : Except FailureKind (List Byte) :=
  match lowestOutOfBounds a len with
  | some b => .error (.outOfBounds b)
  | none => .ok ((List.range len).map fun k => s.readByte (a + k))

/-- Memory is replaced by another. -/
def State.writeMem (s : State) (m : Memory) : State := { s with Mem := m }

/-- The bytes to a, a+1, …: every address is checked before any byte is written (R11, R40). -/
def State.storeRange (s : State) (a : Nat) (bytes : List Byte) : Except FailureKind State :=
  match lowestOutOfBounds a bytes.length with
  | some b => .error (.outOfBounds b)
  | none => .ok (s.writeMem (s.Mem.setRange s.font a bytes))

/-! ## The stack (R21, R22) -/

/-- The stack pointer moves. -/
def State.writeSP (s : State) (sp : Fin 17) : State := { s with SP := sp }

/-- `Stack[k] <- a`. -/
def State.writeSlot (s : State) (k : Fin 16) (a : Word) : State := { s with Stack := s.Stack.set k.val a }

/-- The push of `2nnn`: `Stack[SP] <- a; SP <- SP + 1`, or StackOverflow at SP = 16 (R83). -/
def State.push (s : State) (a : Word) : Except FailureKind State :=
  if h : s.SP.val < 16 then
    .ok ((s.writeSlot ⟨s.SP.val, h⟩ a).writeSP ⟨s.SP.val + 1, by omega⟩)
  else .error .stackOverflow

/-- The pop of `00EE`: `SP <- SP - 1`, and the value `Stack[SP]` then holds, or StackUnderflow at SP = 0
(R81). -/
def State.pop (s : State) : Except FailureKind (Word × State) :=
  if h : s.SP.val = 0 then .error .stackUnderflow
  else .ok (s.Stack[s.SP.val - 1]'(by omega), s.writeSP ⟨s.SP.val - 1, by omega⟩)

/-! ## The display buffer (R111 to R113) -/

/-- `FB[row][col]` (R26). -/
def Screen.pixel (fb : Screen) (row : Fin 32) (col : Fin 64) : Bool := fb[row.val][col.val]

/-- `FB[row][col] <- b`. -/
def Screen.setPixel (fb : Screen) (row : Fin 32) (col : Fin 64) (b : Bool) : Screen :=
  fb.set row.val (fb[row.val].set col.val b)

/-- The buffer with every pixel 0: what `clear()` leaves (R112). -/
def Screen.blank : Screen := Vector.replicate 32 (Vector.replicate 64 false)

/-- A drawing under way: the buffer and the collision flag so far (R113). -/
structure Drawing where
  fb        : Screen
  collision : Bool
  deriving DecidableEq, Repr

/-- One pixel of a sprite: `FB[row][col] <- old ^ bit`, and a collision if old and bit are both 1 (R113). -/
def Drawing.plot (d : Drawing) (row : Fin 32) (col : Fin 64) (bit : Bool) : Drawing :=
  { fb := d.fb.setPixel row col (d.fb.pixel row col ^^ bit)
    collision := d.collision || (d.fb.pixel row col && bit) }

/-- Bit-column `j` of a sprite row byte: `(byte >> (7 - j)) & 1`, so j = 0 is bit 7 (R111, R113, D25). -/
def spriteBit (byte : Byte) (j : Nat) : Bool := byte.getLsbD (7 - j)

/-- A row, wrapped: `y mod 32` (R113). -/
def rowMod (y : Nat) : Fin 32 := ⟨y % 32, Nat.mod_lt _ (by decide)⟩

/-- A column, wrapped: `x mod 64` (R113). -/
def colMod (x : Nat) : Fin 64 := ⟨x % 64, Nat.mod_lt _ (by decide)⟩

/-- Draw the listed bit-columns of one sprite row at row `row`, column `(x + j) mod 64` (R113). -/
def Drawing.plotBits (d : Drawing) (row : Fin 32) (x : Nat) (byte : Byte) : List Nat → Drawing
  | [] => d
  | j :: js => (d.plot row (colMod (x + j)) (spriteBit byte j)).plotBits row x byte js

/-- Draw the sprite's rows downwards from `y`, each at row `y mod 32` (R113). -/
def Drawing.plotRows (d : Drawing) (x y : Nat) : List Byte → Drawing
  | [] => d
  | byte :: rest => (d.plotBits (rowMod y) x byte (List.range 8)).plotRows x (y + 1) rest

/-- `draw_sprite(x, y, bytes)` (R113): the new buffer and the collision flag. -/
def drawSprite (fb : Screen) (x y : Byte) (bytes : List Byte) : Drawing :=
  Drawing.plotRows ⟨fb, false⟩ x.toNat y.toNat bytes

/-- Put a buffer in place and flag a redraw: what `00E0` and `Dxyn`, and nothing else, do (R73). -/
def State.show (s : State) (fb : Screen) : State := { s with FB := fb, redraw := true }

/-! ## The environment (R31, R138 to R143) -/

/-- The inputs of the current cycle (R70): the first record the state lists, or free ones. -/
def State.input (s : State) : Config.CycleInput :=
  match s.inputs with
  | inp :: _ => inp
  | [] => Config.freeInput s.used

/-- A cycle has used its inputs: the next cycle has the next record. -/
def State.useInput (s : State) : State := { s with inputs := s.inputs.tail, used := s.used + 1 }

/-- `KeyDown(k)`: the snapshot the last refresh left (R140). -/
def State.keyDown (s : State) (k : Key) : Bool := s.keys[k.val]

/-- The run state changes and nothing else does. -/
def State.setRun (s : State) (r : RunState) : State := { s with run := r }

end Sys2Proof.Machine
end

