-- ==== Sys2Proof/Machine/Cycle.lean ====
section
/-! DEFINITION. The parts of a cycle around the execute step (40_cycle.md rule R70): the start, the fetch,
and steps 4 to 8. Machine/Step.lean puts them together. -/

namespace Sys2Proof.Machine

/-- The start of a cycle: `jump <- 0; redraw <- 0`. The run state is `Running` while a cycle executes:
R79 sets it at the end of every cycle that completes, whatever it was, and the other ends of a cycle set
their own (log entry 8). -/
def State.beginCycle (s : State) : State := { s with jump := false, redraw := false, run := .running }

/-- `Fetch(pc)`, step 1 (R71): the byte at pc is the high byte, that at pc + 1 the low byte; pc + 1 is an
exact integer. -/
def fetch (s : State) : Except FailureKind Word :=
  match s.memRead s.pc.toNat with
  | .error kind => .error kind
  | .ok high =>
    match s.memRead (s.pc.toNat + 1) with
    | .error kind => .error kind
    | .ok low => .ok (wordOfBytes high low)

/-- Steps 1 and 2: fetch and decode (R60, R71). A word that decodes to nothing fails with UnknownOpcode,
which records it whole (R62); a fetched word is never truncated. -/
def fetchInstr (s : State) : Except FailureKind Instr :=
  match fetch s with
  | .error kind => .error kind
  | .ok w =>
    match decode w with
    | .ok i => .ok i
    | .error _ => .error (.unknownOpcode w)

/-- Step 5, first half: the frontend is handed the whole buffer, if a redraw was flagged (R73, R117). -/
def State.render (s : State) : State := if s.redraw then { s with frames := s.FB :: s.frames } else s

/-- Step 5, second half: the key snapshot is replaced whole (R75, R140). -/
def State.refreshKeys (s : State) : State := { s with keys := s.input.keysNew }

/-- Step 6: `pc <- (pc + 2) mod 2^16` unless the jump flag is set (R76). -/
def State.advance (s : State) : State := if s.jump then s else { s with pc := s.pc + 2 }

/-- One timer's decay, floored at 0 (R77). -/
def decay (t : Byte) : Byte := if t.toNat > 0 then t - 1 else 0

/-- Step 7: on a tick both timers fall by 1, floored at 0 (R77). -/
def State.tickTimers (s : State) : State :=
  if s.input.tick then { s with DT := decay s.DT, ST := decay s.ST } else s

/-- The end of a cycle (R79): the run halts if the refresh reported quit and is `Running` otherwise, and
the flags of the cycle do not survive it (R30). The pacing of step 8 changes no state (R78). -/
def State.close (s : State) : State :=
  { s with run := if s.input.quit then .halted else .running, jump := false, redraw := false }

/-- Steps 4 to 8 of a cycle whose instruction has executed, in their order (R70, R133). -/
def State.complete (s : State) : State :=
  s.render.refreshKeys.advance.tickTimers.close.useInput

/-- How a cycle ends. `s` is the state at its start and `t` that after the execute step (R70, R121, R129).
A failure, an abort of the key wait and a key wait without an answer discard the cycle: the state is that
at its start with the run state changed, with no render, refresh, advance or tick. A wait without an
answer has used the inputs of its cycle, and the next cycle asks again (D29). -/
def endCycle (s t : State) : State :=
  match t.run with
  | .faulted kind => s.raise kind
  | .halted => s.setRun .halted
  | .awaitingKey => (s.setRun .awaitingKey).useInput
  | .running => t.complete

end Sys2Proof.Machine
end

