-- ==== Sys2Proof/Machine/Flags.lean ====
section
/-! DEFINITION. The flag computations (10_state.md rule R27). The only flag is VF (R16); the instructions
that write it as a flag are `8xy4`, `8xy5`, `8xy6`, `8xy7`, `8xyE` and `Dxyn`. -/

namespace Sys2Proof.Machine

/-- A flag as the byte VF receives: 1 or 0. -/
def flagByte (flag : Bool) : Byte := if flag then 1 else 0

/-- The carry of `8xy4`: the exact sum exceeds 255 (R96). -/
def carryOut (a b : Byte) : Bool := decide (a.toNat + b.toNat > 255)

/-- NOT borrow, of `8xy5` and, with its operands exchanged, `8xy7`: strictly greater, so equal operands
give 0 (R97, R99). -/
def notBorrow (a b : Byte) : Bool := decide (a.toNat > b.toNat)

/-- The bit `8xy6` shifts out: bit 0 before the shift (R98). -/
def lowBitOut (a : Byte) : Bool := a.getLsbD 0

/-- The bit `8xyE` shifts out: bit 7 before the shift (R100). -/
def highBitOut (a : Byte) : Bool := a.getLsbD 7

/-- `V[x] <- result; V[0xF] <- flag`: the flag is written last, so with x = 0xF it is what VF holds
(R11, R96, R103, 90_conflicts.md C3, D9). The caller has read its operands already. -/
def State.writeFlagged (s : State) (x : Reg) (result : Byte) (flag : Bool) : State :=
  (s.writeV x result).writeV VF (flagByte flag)

/-- The collision flag into VF, 1 or 0; it is always written (R116). -/
def State.writeCollision (s : State) (collision : Bool) : State := s.writeV VF (flagByte collision)

end Sys2Proof.Machine
end

