-- ==== Sys2Proof/Machine/Operands.lean ====
section
/-! DEFINITION. The operand forms (30_encoding.md rule R59, 43_index_memory.md rule R110).

A register operand is read with `State.readV`, and `kk` is used as it is: nothing is sign-extended, scaled
or shifted (R59). What is left is built here. -/

namespace Sys2Proof.Machine

/-- `zext_16(nnn)`: an address field where it goes into pc or I (R59). -/
def zext16 (nnn : Addr12) : Word := nnn.setWidth 16

/-- The target of `Bnnn`: `zext_16(nnn) + V[0]`, at most 0x10FE, with no wrap (R84). -/
def offsetTarget (s : State) (nnn : Addr12) : Word := zext16 nnn + (s.readV V0).setWidth 16

/-- Index plus offset, the only data addressing mode: the exact integer I + k (R40, R110, D15). -/
def dataAddress (s : State) (k : Nat) : Nat := s.I.toNat + k

/-- `(I + V[x]) mod 2^16`, of `Fx1E` (R105, D16). -/
def indexPlus (s : State) (x : Reg) : Word := s.I + (s.readV x).setWidth 16

/-- `(FONT_BASE + 5 * V[x]) mod 2^16`, the only scaled operand: the glyph of Vx, with no mask on Vx
(R59, R106, D38). -/
def glyphAddress (s : State) (x : Reg) : Word :=
  BitVec.ofNat 16 (s.font.base.val + 5 * (s.readV x).toNat)

/-- The decimal digits of a value, a byte each: hundreds, tens, ones (R107). -/
def bcdDigits (v : Byte) : List Byte := [v / 100, (v / 10) % 10, v % 10]

/-- The values of V0 to Vx, in ascending order (R108). -/
def regsThrough (s : State) (x : Reg) : List Byte := s.V.toList.take (x.val + 1)

/-- The sprite of `Dxyn`: the half-open range of n bytes from I (R116, D33). -/
def spriteBytes (s : State) (n : Fin 16) : Except FailureKind (List Byte) :=
  s.readRange (dataAddress s 0) n.val

/-- The key index Vx names, or KeyIndexOutOfRange(Vx) above 15 (R118, D18). -/
def keyIndex (s : State) (x : Reg) : Except FailureKind Key :=
  if h : (s.readV x).toNat < 16 then .ok ⟨(s.readV x).toNat, h⟩
  else .error (.keyIndexOutOfRange (s.readV x))

/-- A key index as the byte that `Fx0A` writes to Vx (R121). -/
def keyByte (k : Key) : Byte := BitVec.ofNat 8 k.val

end Sys2Proof.Machine
end

