-- ==== Sys2Proof/Machine/Alu.lean ====
section
/-! DEFINITION. Register and ALU instructions (42_alu.md). Values are unsigned 8-bit and wrap mod 256
(R102). Every operand is read from the state before any write (R11). -/

namespace Sys2Proof.Machine

/-- `6xkk` LD Vx, kk (R90). -/
def execLdImm (x : Reg) (kk : Byte) (s : State) : Result := .next (s.writeV x kk)

/-- `7xkk` ADD Vx, kk (R91): no flag. -/
def execAddImm (x : Reg) (kk : Byte) (s : State) : Result := .next (s.writeV x (s.readV x + kk))

/-- `8xy0` LD Vx, Vy (R92). -/
def execLdReg (x y : Reg) (s : State) : Result := .next (s.writeV x (s.readV y))

/-- `8xy1` OR Vx, Vy (R93): VF is not reset (D10). -/
def execOrReg (x y : Reg) (s : State) : Result := .next (s.writeV x (s.readV x ||| s.readV y))

/-- `8xy2` AND Vx, Vy (R94): VF is not reset (D10). -/
def execAndReg (x y : Reg) (s : State) : Result := .next (s.writeV x (s.readV x &&& s.readV y))

/-- `8xy3` XOR Vx, Vy (R95): VF is not reset (D10). -/
def execXorReg (x y : Reg) (s : State) : Result := .next (s.writeV x (s.readV x ^^^ s.readV y))

/-- `8xy4` ADD Vx, Vy (R96). -/
def execAddReg (x y : Reg) (s : State) : Result :=
  .next (s.writeFlagged x (s.readV x + s.readV y) (carryOut (s.readV x) (s.readV y)))

/-- `8xy5` SUB Vx, Vy (R97). -/
def execSub (x y : Reg) (s : State) : Result :=
  .next (s.writeFlagged x (s.readV x - s.readV y) (notBorrow (s.readV x) (s.readV y)))

/-- `8xy6` SHR Vx (R98): the source is Vx; the field y is ignored. -/
def execShr (x _y : Reg) (s : State) : Result :=
  .next (s.writeFlagged x (s.readV x >>> 1) (lowBitOut (s.readV x)))

/-- `8xy7` SUBN Vx, Vy (R99). -/
def execSubn (x y : Reg) (s : State) : Result :=
  .next (s.writeFlagged x (s.readV y - s.readV x) (notBorrow (s.readV y) (s.readV x)))

/-- `8xyE` SHL Vx (R100): the source is Vx; the field y is ignored. -/
def execShl (x _y : Reg) (s : State) : Result :=
  .next (s.writeFlagged x (s.readV x <<< 1) (highBitOut (s.readV x)))

/-- `Cxkk` RND Vx, kk (R101): the random byte is the cycle's input `rnd`, under no law (R142). -/
def execRnd (x : Reg) (kk : Byte) (s : State) : Result := .next (s.writeV x (s.input.rnd &&& kk))

end Sys2Proof.Machine
end

