-- ==== Sys2Proof/Machine/ControlFlow.lean ====
section
/-! DEFINITION. Control transfer and skips (41_control_flow.md). `pc` is the address of the instruction
itself; step 6 of the cycle adds 2 unless the jump flag is set (R76). -/

namespace Sys2Proof.Machine

/-- `00EE` RET (R81): `SP <- SP - 1; pc <- Stack[SP]`. The jump flag stays 0 (D11), so step 6 adds 2 to the
popped address, which is that of the CALL. -/
def execRet (s : State) : Result :=
  s.settle (match s.pop with
    | .ok (a, t) => .ok (t.writePc a)
    | .error kind => .error kind)

/-- `1nnn` JP nnn (R82). -/
def execJp (nnn : Addr12) (s : State) : Result := .next (s.jumpTo (zext16 nnn))

/-- `2nnn` CALL nnn (R83): the pushed value is the CALL's own address. -/
def execCall (nnn : Addr12) (s : State) : Result :=
  s.settle (match s.push s.pc with
    | .ok t => .ok (t.jumpTo (zext16 nnn))
    | .error kind => .error kind)

/-- `Bnnn` JP V0, nnn (R84). -/
def execJpV0 (nnn : Addr12) (s : State) : Result := .next (s.jumpTo (offsetTarget s nnn))

/-- `3xkk` SE Vx, kk (R85). -/
def execSeImm (x : Reg) (kk : Byte) (s : State) : Result := .next (s.skipIf (s.readV x == kk))

/-- `4xkk` SNE Vx, kk (R86). -/
def execSneImm (x : Reg) (kk : Byte) (s : State) : Result := .next (s.skipIf (s.readV x != kk))

/-- `5xy0` SE Vx, Vy (R87). -/
def execSeReg (x y : Reg) (s : State) : Result := .next (s.skipIf (s.readV x == s.readV y))

/-- `9xy0` SNE Vx, Vy (R88). -/
def execSneReg (x y : Reg) (s : State) : Result := .next (s.skipIf (s.readV x != s.readV y))

end Sys2Proof.Machine
end

