-- ==== Sys2Proof/Machine/Display.lean ====
section
/-! DEFINITION. Display instructions (44_display.md). -/

namespace Sys2Proof.Machine

/-- `00E0` CLS (R115): `clear(); redraw <- 1`. VF is unchanged. -/
def execCls (s : State) : Result := .next (s.show Screen.blank)

/-- `Dxyn` DRW Vx, Vy, n (R116): the coordinates are read before VF is written, and the bounds are checked
before any pixel changes. n = 0 reads nothing, writes VF = 0 and still flags a redraw. -/
def execDrw (x y : Reg) (n : Fin 16) (s : State) : Result :=
  s.settle (match spriteBytes s n with
    | .ok bytes =>
      .ok ((s.show (drawSprite s.FB (s.readV x) (s.readV y) bytes).fb).writeCollision
        (drawSprite s.FB (s.readV x) (s.readV y) bytes).collision)
    | .error kind => .error kind)

end Sys2Proof.Machine
end

