-- ==== Sys2Proof/Machine/IndexMemory.lean ====
section
/-! DEFINITION. Index register and memory instructions (43_index_memory.md). Addresses are exact integers,
and every address of a range is checked before any write (R11, R40). None changes I after an access
(R110, D17). -/

namespace Sys2Proof.Machine

/-- `Annn` LD I, nnn (R104). -/
def execLdI (nnn : Addr12) (s : State) : Result := .next (s.writeI (zext16 nnn))

/-- `Fx1E` ADD I, Vx (R105): no flag. -/
def execAddI (x : Reg) (s : State) : Result := .next (s.writeI (indexPlus s x))

/-- `Fx29` LD F, Vx (R106). -/
def execLdF (x : Reg) (s : State) : Result := .next (s.writeI (glyphAddress s x))

/-- `Fx33` LD B, Vx (R107): hundreds, tens and ones at I, I+1 and I+2. -/
def execLdB (x : Reg) (s : State) : Result :=
  s.settle (s.storeRange (dataAddress s 0) (bcdDigits (s.readV x)))

/-- `Fx55` LD [I], Vx (R108): V0 to Vx at I to I+x. -/
def execLdMemVx (x : Reg) (s : State) : Result :=
  s.settle (s.storeRange (dataAddress s 0) (regsThrough s x))

/-- `Fx65` LD Vx, [I] (R109): V0 to Vx from I to I+x. -/
def execLdVxMem (x : Reg) (s : State) : Result :=
  s.settle (match s.readRange (dataAddress s 0) (x.val + 1) with
    | .ok bytes => .ok (s.writeRegs bytes)
    | .error kind => .error kind)

end Sys2Proof.Machine
end

