-- ==== Sys2Proof/Machine/KeysTimers.lean ====
section
/-! DEFINITION. Key and timer instructions (45_timers_keys.md). The timers' own decay is step 7 of the
cycle, in Machine/Cycle.lean. -/

namespace Sys2Proof.Machine

/-- `Ex9E` SKP Vx (R118): skip if key Vx is down in the snapshot. -/
def execSkp (x : Reg) (s : State) : Result :=
  s.settle (match keyIndex s x with
    | .ok k => .ok (s.skipIf (s.keyDown k))
    | .error kind => .error kind)

/-- `ExA1` SKNP Vx (R119): skip if key Vx is not down in the snapshot. -/
def execSknp (x : Reg) (s : State) : Result :=
  s.settle (match keyIndex s x with
    | .ok k => .ok (s.skipIf (!s.keyDown k))
    | .error kind => .error kind)

/-- `Fx07` LD Vx, DT (R120): before this cycle's decay. -/
def execLdVxDT (x : Reg) (s : State) : Result := .next (s.writeV x s.DT)

/-- `Fx0A` LD Vx, K (R121): the answer to the key wait is the cycle's input `wait`. A key is written to Vx
and the cycle goes on; with no key yet the run awaits one; an abort ends the run. In the last two cases
the cycle stops here (Machine/Cycle.lean, D19, D29). -/
def execLdVxK (x : Reg) (s : State) : Result :=
  .next (match s.input.wait with
    | .key k => (s.writeV x (keyByte k)).setRun .running
    | .pending => s.setRun .awaitingKey
    | .abort => s.setRun .halted)

/-- `Fx15` LD DT, Vx (R122). -/
def execLdDTVx (x : Reg) (s : State) : Result := .next (s.writeDT (s.readV x))

/-- `Fx18` LD ST, Vx (R123). -/
def execLdSTVx (x : Reg) (s : State) : Result := .next (s.writeST (s.readV x))

end Sys2Proof.Machine
end

