-- ==== Sys2Proof/Machine/Load.lean ====
section
/-! DEFINITION. The program load and the boot sequence (20_memory.md rule R48, 60_exceptions.md rule R127,
70_reset_and_hazards.md rule R150). The driver loads one image after construction and before the first
cycle (D34). -/

namespace Sys2Proof.Machine

/-- What the driver finds when it reads the program file: its bytes, raw and without a header, or an I/O
failure (R48). -/
inductive ImageFile where
  | bytes (image : List Byte)
  | unreadable
  deriving DecidableEq, Repr

/-- The two failures of loading (R127): no cycle runs. -/
inductive LoadFailure where
  /-- An image longer than 3584 bytes. -/
  | programTooLarge
  /-- An I/O error reading the image. -/
  | programLoadIO
  deriving DecidableEq, Repr

/-- `Load(image, len)` (R48): the bytes verbatim from 0x200 up, and no other state (R36). -/
def State.load (s : State) : ImageFile → Except LoadFailure State
  | .unreadable => .error .programLoadIO
  | .bytes image =>
    if imageFits image then .ok (s.writeMem (s.Mem.setRange s.font Config.programBase image))
    else .error .programTooLarge

/-- Boot (R150): construct, then load. Cycles run from the state it gives. -/
def boot (font : Config.Font) (file : ImageFile) : Except LoadFailure State :=
  (State.construct font).load file

end Sys2Proof.Machine
end

