-- ==== Sys2Proof/Machine/Step.lean ====
section
/-! DEFINITION. One step of the machine is one cycle (40_cycle.md rules R69 and R70). -/

namespace Sys2Proof.Machine

/-- `Cycle(s, in)` of R70 in a run state that has a next cycle. -/
def cycle (s : State) : Host.Outcome State Fault Refusal :=
  match fetchInstr s with
  | .error kind => .next (s.raise kind)
  | .ok i =>
    match exec i s.beginCycle with
    | .next t => .next (endCycle s t)
    | .fault r => .fault r
    | .refused r => .refused r

/-- One step: a cycle in run state `Running` or `AwaitingKey`; in `Halted(Quit)` and `Faulted(kind)` there
is no next cycle (R69). -/
def step (s : State) : Host.Outcome State Fault Refusal :=
  match s.run with
  | .running => cycle s
  | .awaitingKey => cycle s
  | .halted => .fault .halted
  | .faulted kind => .fault (.failed kind)

/-- Where the next instruction is fetched: pc, or the entry point 0x200 where pc cannot be fetched (R71). -/
def fetchablePc (s : State) : Word := if s.pc.toNat < 0xFFF then s.pc else 0x200

/-- A run state with a next cycle, as it is; `Running` in the place of one without. -/
def liveRun : RunState → RunState
  | .running => .running
  | .awaitingKey => .awaitingKey
  | .halted => .running
  | .faulted _ => .running

/-- The state with an instruction stored where `step` fetches its next one. Its one word is bits 15..0,
the bits from `nbits` up being 0, stored high byte first at pc and pc + 1 (R41). A pc that cannot be
fetched becomes the entry point, and a run that has ended becomes live; nothing else changes. -/
def State.withFetchWord (s : State) (nbits w : Nat) : State :=
  { s with
    pc := fetchablePc s
    run := liveRun s.run
    Mem := s.Mem.setRange s.font (fetchablePc s).toNat (bytesOfWord (BitVec.ofNat 16 (w % 2 ^ nbits))) }

end Sys2Proof.Machine
end

