-- ==== Sys2Proof/Safety.lean ====
section
/-! DEFINITION. What claims about the machine are stated in: which runs are live, what every state between
cycles satisfies, and the tables of the spec that range over all instructions (10_state.md rules R17 and
R19, 60_exceptions.md rule R126), written from the tables and not from the meanings. -/

namespace Sys2Proof.Machine

/-- A cycle can start: run state `Running` or `AwaitingKey` (R69). -/
def State.live (s : State) : Prop := s.run = .running ∨ s.run = .awaitingKey

/-- There is no next cycle: run state `Halted(Quit)` or `Faulted(kind)` (R69). -/
def State.ended (s : State) : Prop := s.run = .halted ∨ ∃ kind, s.run = .faulted kind

/-- What holds between cycles: memory is in its canonical form, the flags of a cycle have not survived it
(R30), and in `AwaitingKey` the next fetch gives the waiting `Fx0A` again (R121). -/
def State.Inv (s : State) : Prop :=
  s.Mem.wf s.font = true ∧ s.jump = false ∧ s.redraw = false ∧
    (s.run = .awaitingKey → ∃ x, fetchInstr s = .ok (.ldVxK x))

/-- Every byte of memory reads as before. -/
def State.sameMemory (s t : State) : Prop := ∀ a, t.readByte a = s.readByte a

/-- A condition of an instruction as the option of its failure. -/
def failsIf (c : Bool) (kind : FailureKind) : Option FailureKind := if c then some kind else none

/-- The failure of R126's table an instruction raises in a state, if it raises one. -/
def failureOf (i : Instr) (s : State) : Option FailureKind :=
  match i with
  | .ret => failsIf (s.SP == 0) .stackUnderflow
  | .call _ => failsIf (s.SP == 16) .stackOverflow
  | .drw _ _ n =>
    failsIf (decide (0 < n.val ∧ s.I.toNat + n.val - 1 > 0xFFF)) (.outOfBounds (max s.I.toNat 0x1000))
  | .ldB _ => failsIf (decide (s.I.toNat + 2 > 0xFFF)) (.outOfBounds (max s.I.toNat 0x1000))
  | .ldMemVx x => failsIf (decide (s.I.toNat + x.val > 0xFFF)) (.outOfBounds (max s.I.toNat 0x1000))
  | .ldVxMem x => failsIf (decide (s.I.toNat + x.val > 0xFFF)) (.outOfBounds (max s.I.toNat 0x1000))
  | .skp x => failsIf (decide ((s.readV x).toNat > 15)) (.keyIndexOutOfRange (s.readV x))
  | .sknp x => failsIf (decide ((s.readV x).toNat > 15)) (.keyIndexOutOfRange (s.readV x))
  | .cls | .jp _ | .seImm _ _ | .sneImm _ _ | .seReg _ _ | .ldImm _ _ | .addImm _ _ | .ldReg _ _
  | .orReg _ _ | .andReg _ _ | .xorReg _ _ | .addReg _ _ | .sub _ _ | .shr _ _ | .subn _ _ | .shl _ _
  | .sneReg _ _ | .ldI _ | .jpV0 _ | .rnd _ _ | .ldVxDT _ | .ldVxK _ | .ldDTVx _ | .ldSTVx _
  | .addI _ | .ldF _ => none

/-- The key wait of the cycle has an answer that lets the instruction complete (R121). It says nothing
about any other instruction. -/
def answered (i : Instr) (s : State) : Prop :=
  match i with
  | .ldVxK _ => ∃ k, s.input.wait = .key k
  | _ => True

/-- Is the key Vx names down in the snapshot (R140)? -/
def keyDownAt (s : State) (x : Reg) : Bool := s.keys[(s.readV x).toNat]?.getD false

/-- The condition of a skip instruction (R85 to R88, R118, R119); `none` for every other instruction. -/
def skipCondition (i : Instr) (s : State) : Option Bool :=
  match i with
  | .seImm x kk => some (s.readV x == kk)
  | .sneImm x kk => some (s.readV x != kk)
  | .seReg x y => some (s.readV x == s.readV y)
  | .sneReg x y => some (s.readV x != s.readV y)
  | .skp x => some (keyDownAt s x)
  | .sknp x => some (!keyDownAt s x)
  | _ => none

/-- pc at the start of the next cycle, by the list of R19. -/
def nextPcOf (i : Instr) (s : State) : Word :=
  match i with
  | .jp nnn => nnn.setWidth 16
  | .call nnn => nnn.setWidth 16
  | .jpV0 nnn => nnn.setWidth 16 + (s.readV 0).setWidth 16
  | .ret => s.Stack[s.SP.val - 1]! + 2
  | _ => if skipCondition i s = some true then s.pc + 4 else s.pc + 2

/-- May the instruction write this general register (R17)? -/
def mayWriteReg (i : Instr) (r : Reg) : Bool :=
  match i with
  | .ldImm x _ | .addImm x _ | .ldReg x _ | .orReg x _ | .andReg x _ | .xorReg x _ | .rnd x _
  | .ldVxDT x | .ldVxK x => r == x
  | .addReg x _ | .sub x _ | .shr x _ | .subn x _ | .shl x _ => r == x || r == VF
  | .drw _ _ _ => r == VF
  | .ldVxMem x => decide (r.val ≤ x.val)
  | _ => false

/-- May the instruction write the byte at this address (R17, R39)? -/
def mayStore (i : Instr) (s : State) (a : Nat) : Bool :=
  match i with
  | .ldB _ => decide (s.I.toNat ≤ a ∧ a ≤ s.I.toNat + 2)
  | .ldMemVx x => decide (s.I.toNat ≤ a ∧ a ≤ s.I.toNat + x.val)
  | _ => false

/-- May the instruction write this stack slot (R17, R22)? `2nnn` writes Stack[SP] alone. -/
def mayWriteSlot (i : Instr) (s : State) (k : Fin 16) : Bool :=
  match i with
  | .call _ => k.val == s.SP.val
  | _ => false

/-- `00E0` and `Dxyn`, the instructions that write the display buffer and flag a redraw (R17, R73). -/
def draws (i : Instr) : Bool :=
  match i with
  | .cls | .drw _ _ _ => true
  | _ => false

/-- `1nnn`, `2nnn` and `Bnnn`, the instructions that set the jump flag (R74). -/
def jumps (i : Instr) : Bool :=
  match i with
  | .jp _ | .call _ | .jpV0 _ => true
  | _ => false

/-- The instructions that write I (R17, R20). -/
def writesIndex (i : Instr) : Bool :=
  match i with
  | .ldI _ | .addI _ | .ldF _ => true
  | _ => false

/-- The instructions that write pc in their execute step (R17, R18). -/
def writesPc (i : Instr) : Bool :=
  match i with
  | .ret | .jp _ | .call _ | .jpV0 _ | .seImm _ _ | .sneImm _ _ | .seReg _ _ | .sneReg _ _
  | .skp _ | .sknp _ => true
  | _ => false

end Sys2Proof.Machine
end

