-- ==== Sys2Proof/Certificates/Slice0/Obligations.lean ====
section
/-! DEFINITION. The statements for the provers. Each docstring names the rule of spec/ it formalises and,
where a clause rests on a decision of 92_eei_decisions.md or on the model's own choice, says so.

Where a docstring names a decision, the log entry in brackets says what the model takes from it and how far
that is safe. "Precise" is decision D21 (log entry 9): a failing instruction leaves everything but the run
state as it was.

A frame is written as an equation `t = { s with … }`: every component not named is as before, the
configuration and the environment's ports included. `State.sameMemory s t` says besides, byte by byte, that
all of memory reads as before. -/

open Sys2Proof Sys2Proof.Machine

/-! ## Encoding -/

/-- Words written out from the encodings of R61 decode to the instructions they stand for, one or more of
each family; bytes are taken high byte first (R41). -/
def Obligations.WrittenOutWordsDecode : Prop :=
  decode 0b0000000011100000 = .ok .cls ∧
  decode 0b0000000011101110 = .ok .ret ∧
  decode 0b0010001100000001 = .ok (.call 0x301) ∧
  decode 0b0011001101000010 = .ok (.seImm 3 0x42) ∧
  decode 0b1000000100100100 = .ok (.addReg 1 2) ∧
  decode 0b1000000101011110 = .ok (.shl 1 5) ∧
  decode 0b1100001100001111 = .ok (.rnd 3 0x0F) ∧
  decode 0b1101000100100101 = .ok (.drw 1 2 5) ∧
  decode 0b1110010010011110 = .ok (.skp 4) ∧
  decode 0b1111001001010101 = .ok (.ldMemVx 2) ∧
  decode 0b1111010100001010 = .ok (.ldVxK 5) ∧
  decodeBytes [0x12, 0x34, 0xFF] = .ok (.jp 0x234, [0xFF])

/-- Decoding the word of any instruction gives the instruction back, with every operand at every value (R57,
R58, R60, R61). That this holds of the y field of `8xy6` and `8xyE`, which R65 says is ignored, is the model's
choice: it keeps the field as syntax (log entry 25). -/
def Obligations.DecodeAfterEncodeGivesBack : Prop :=
  ∀ i : Instr, decode (encode i) = .ok i

/-- Encoding what a word decodes to gives the word back: no bit of a legal word is dropped (R57, R61). For
`8xy6` and `8xyE` this is the model's choice, not the spec's: R65 says that their y field is ignored, and the
model keeps it as syntax (log entry 25). -/
def Obligations.EncodeAfterDecodeGivesBack : Prop :=
  ∀ (w : Word) (i : Instr), decode w = .ok i → encode i = w

/-- The decode tree of R60 accepts exactly the words of the opcode map R61; every other word is rejected as
UnknownOpcode with the whole word (R62). That 5xyN and 9xyN with N not 0 are among the rejected (R64) is
decision D24 (log entry 20). -/
def Obligations.DecodeAcceptsExactlyTheOpcodeMap : Prop :=
  ∀ w : Word,
    ((∃ i, decode w = .ok i) ↔ wordLegal w = true) ∧
    (wordLegal w = false → decode w = .error (.unknownOpcode w))

/-- No two rows of the opcode map match the same word (R61). -/
def Obligations.NoWordMatchesTwoRows : Prop :=
  ∀ (w : Word) (p q : OpcodeRow), p ∈ opcodeTable → q ∈ opcodeTable →
    p.matches w = true → q.matches w = true → p = q

/-! ## The cycle -/

/-- A live step runs the decoded instruction (R69, R70, R72): when the word at pc decodes to `i`, the step is
`exec i` from the start of the cycle, followed by the end of the cycle, and it stops exactly as `exec` does.
That the run state is Running while the instruction executes is the model's reading (log entry 8). -/
def Obligations.StepRunsTheDecodedInstruction : Prop :=
  ∀ (s : State) (i : Instr), s.live → i.wellFormed = true → fetchInstr s = .ok i →
    (∀ t, exec i s.beginCycle = .next t → step s = .next (endCycle s t)) ∧
    (∀ f, exec i s.beginCycle = .fault f → step s = .fault f) ∧
    (∀ r, exec i s.beginCycle = .refused r → step s = .refused r)

/-- Fetch (R71): pc above 0xFFF fails with OutOfBounds(pc), pc = 0xFFF with OutOfBounds(0x1000), and any other
pc gives Mem[pc] * 256 + Mem[pc+1]. A failing fetch is the failure of the cycle (R129). That an odd pc fetches
like an even one is decision D13 (log entry 13), the recorded addresses are decision D36 (log entry 14), and
that the failing cycle changes nothing but the run state is decision D21 (log entry 9). -/
def Obligations.FetchReadsTwoBytesOrFails : Prop :=
  ∀ s : State,
    (s.pc.toNat > 0xFFF → fetch s = .error (.outOfBounds s.pc.toNat)) ∧
    (s.pc.toNat = 0xFFF → fetch s = .error (.outOfBounds 0x1000)) ∧
    (s.pc.toNat ≤ 0xFFE → ∃ w : Word, fetch s = .ok w ∧
      w.toNat = (s.readByte s.pc.toNat).toNat * 256 + (s.readByte (s.pc.toNat + 1)).toNat) ∧
    (∀ kind, s.live → fetch s = .error kind → step s = .next { s with run := .faulted kind })

/-- An illegal word stops the run in Faulted(UnknownOpcode(w)), w being the whole word (R62). That nothing else
changes (R129) is decision D21 (log entry 9), and that 5xyN and 9xyN with N not 0 are illegal is decision D24
(log entry 20). -/
def Obligations.IllegalWordStopsTheRun : Prop :=
  ∀ (s : State) (w : Word), s.live → fetch s = .ok w → wordLegal w = false →
    step s = .next { s with run := .faulted (.unknownOpcode w) }

/-- In `Halted(Quit)` and `Faulted(kind)` there is no next cycle, and from every other state there is one: a
live machine never stops or refuses (R69). That the two ends of a run are run states, and so that a failure is a
next state, is decision D37 (log entry 9). -/
def Obligations.OnlyEndedRunsHaveNoNextCycle : Prop :=
  ∀ s : State,
    (s.live → ∃ t, step s = .next t) ∧
    (s.run = .halted → step s = .fault .halted) ∧
    (∀ kind, s.run = .faulted kind → step s = .fault (.failed kind))

/-- Failures are precise (R129, by decision D21, log entry 9): when a cycle fails, the state is that at its
start with the run state changed: pc, registers, memory, pixels, stack and timers are as they were, and nothing
has been rendered or refreshed. -/
def Obligations.FailingCycleLeavesTheState : Prop :=
  ∀ (s t : State) (kind : FailureKind), step s = .next t → t.run = .faulted kind →
    t = { s with run := .faulted kind }

/-- Each instruction raises the failure R126's table gives it, exactly when the table's condition holds, and no
other; the failure itself changes nothing but the run state. (R126 is the spec's own derivation; the failure
KeyIndexOutOfRange is its decision D18, log entry 17; the exact addresses and the payloads are its decisions D15
and D36, log entry 14; the precise state is its decision D21, log entry 9.) -/
def Obligations.EachInstructionRaisesItsFailureOnly : Prop :=
  ∀ (i : Instr) (s : State), s.run = .running →
    (∀ kind, failureOf i s = some kind → exec i s = .next { s with run := .faulted kind }) ∧
    (failureOf i s = none → ∃ t, exec i s = .next t ∧ ∀ kind, t.run ≠ .faulted kind)

/-- Steps 4 to 8 of a cycle whose instruction has executed (R70, R73, R75, R76, R77, R79), in terms of the state
`t` after the execute step: the frame is handed over if a redraw was flagged, the key snapshot is replaced, pc
advances by 2 (mod 2^16, decision D14, log entry 13) unless the jump flag is set, both timers fall by at most 1
on a tick (the tick is an input by decision D22, log entry 19), and the run halts on quit and runs otherwise
(decision D20, log entry 19). Everything else is as the instruction left it. That the frame is recorded in
`frames` is the model's (log entry 6), and so is that the cycle uses up one record of inputs (log entry 4). -/
def Obligations.CompletedCycleRunsItsSteps : Prop :=
  ∀ (s t : State) (i : Instr), s.live → fetchInstr s = .ok i → exec i s.beginCycle = .next t →
    t.run = .running →
    step s = .next
      { t with
        frames := if t.redraw then t.FB :: s.frames else s.frames
        keys := s.input.keysNew
        pc := if t.jump then t.pc else t.pc + 2
        DT := if s.input.tick = true ∧ t.DT ≠ 0 then t.DT - 1 else t.DT
        ST := if s.input.tick = true ∧ t.ST ≠ 0 then t.ST - 1 else t.ST
        run := if s.input.quit then .halted else .running
        jump := false
        redraw := false
        inputs := s.inputs.tail
        used := s.used + 1 }

/-- pc at the start of the next cycle, by the list of R19: nnn after `1nnn` and `2nnn`, nnn + V0 after `Bnnn`,
popped + 2 after `00EE`, pc + 4 after a taken skip and pc + 2 otherwise, for every cycle that completes. (That
`2nnn` and `Bnnn` set the jump flag and `00EE` does not is decisions D11 and D12, log entry 12; sums are mod
2^16, decision D14, log entry 13.) It holds also of a cycle whose refresh reports quit: that such a cycle still
advances pc is decision D20 (log entry 19). -/
def Obligations.PcOfTheNextCycle : Prop :=
  ∀ (s : State) (i : Instr), s.live → fetchInstr s = .ok i → failureOf i s = none → answered i s →
    ∃ u, step s = .next u ∧ u.pc = nextPcOf i s

/-- The writes of every instruction, by R17's table and rules R20, R21, R22, R26, R73 and R74: an execute step
changes no register, byte, slot, pixel, timer or flag that the table does not give it, and never the key
snapshot, the configuration or the environment's ports. `2nnn` may write the slot Stack[SP] alone. It holds
where the step raises, too. (Memory is canonical by the invariant `State.Inv`.) That the logic instructions
leave VF is decision D10 (log entry 11), that `Fx55` and `Fx65` leave I is decision D17 (log entry 16), that
`00EE` leaves the jump flag and `2nnn` and `Bnnn` may set it is decisions D11 and D12 (log entry 12), and that a
failing step writes none of its parts is decision D21 (log entry 9). -/
def Obligations.ExecWritesOnlyItsParts : Prop :=
  ∀ (i : Instr) (s t : State), s.Mem.wf s.font = true → exec i s = .next t →
    (∀ r, mayWriteReg i r = false → t.readV r = s.readV r) ∧
    (∀ a, mayStore i s a = false → t.readByte a = s.readByte a) ∧
    (writesIndex i = false → t.I = s.I) ∧
    (writesPc i = false → t.pc = s.pc) ∧
    (draws i = false → t.FB = s.FB ∧ t.redraw = s.redraw) ∧
    (jumps i = false → t.jump = s.jump) ∧
    (∀ k, mayWriteSlot i s k = false → t.Stack[k.val] = s.Stack[k.val]) ∧
    ((∀ nnn, i ≠ .call nnn) → i ≠ .ret → t.SP = s.SP) ∧
    ((∀ x, i ≠ .ldDTVx x) → t.DT = s.DT) ∧
    ((∀ x, i ≠ .ldSTVx x) → t.ST = s.ST) ∧
    t.keys = s.keys ∧ t.frames = s.frames ∧ t.inputs = s.inputs ∧ t.used = s.used ∧ t.font = s.font

/-- The inputs of a cycle reach the execute step of `Cxkk` and `Fx0A` alone (R70: "consumed only by Cxkk",
"consumed only by Fx0A"): any other instruction does the same whatever they are. That the inputs stand in State,
as a list and a counter, is the model's (log entry 4). -/
def Obligations.InputsReachOnlyTheirInstructions : Prop :=
  ∀ (i : Instr) (s t : State) (l : List Config.CycleInput) (n : Nat),
    (∀ x kk, i ≠ .rnd x kk) → (∀ x, i ≠ .ldVxK x) → exec i s = .next t →
    exec i { s with inputs := l, used := n } = .next { t with inputs := l, used := n }

/-- Every step keeps the invariant: memory stays canonical (the model's own form, log entry 2), no flag of a
cycle survives it (R30), and while a key is awaited the next fetch gives an `Fx0A` again (R121, decision D29,
log entry 18). -/
def Obligations.StepKeepsTheInvariant : Prop :=
  ∀ s t : State, s.Inv → step s = .next t → t.Inv

/-- Construction meets the invariant, whatever the font (R30, R35; the canonical form is the model's own, log
entry 2). -/
def Obligations.ConstructionMeetsTheInvariant : Prop :=
  ∀ font : Config.Font, (State.construct font).Inv

/-! ## Reset and load -/

/-- R148: after construction the entry point is pc = 0x200 and the run state is `Running`. -/
def Obligations.ConstructionEntryPoint : Prop :=
  (∀ font, (State.construct font).pc = 0x200 ∧ (State.construct font).run = .running) ∧
  State.reset.pc = 0x200 ∧ State.reset.run = .running

/-- R35 and R49: the rest of what construction leaves. FONT_DATA stands at FONT_BASE, SP is 0 and the flags
of a cycle are 0; that everything else is 0 or released is the spec's decisions D1 to D6 (log entry 1). -/
def Obligations.ConstructionLeavesFontAndZeroes : Prop :=
  ∀ font : Config.Font,
    (∀ k : Fin 80, (State.construct font).readByte (font.base.val + k.val) = font.data[k.val]) ∧
    (∀ a, a < font.base.val ∨ font.base.val + 80 ≤ a → (State.construct font).readByte a = 0) ∧
    (∀ r, (State.construct font).readV r = 0) ∧
    (∀ k : Fin 16, (State.construct font).Stack[k.val] = 0) ∧
    (∀ row col, (State.construct font).FB.pixel row col = false) ∧
    (∀ k, (State.construct font).keyDown k = false) ∧
    (State.construct font).I = 0 ∧ (State.construct font).SP = 0 ∧
    (State.construct font).DT = 0 ∧ (State.construct font).ST = 0 ∧
    (State.construct font).jump = false ∧ (State.construct font).redraw = false ∧
    (State.construct font).font = font

/-- R36: a program load writes only memory, from PROGRAM_BASE up, and resets no other state. Every image of at
most 3584 bytes loads, byte k at 0x200 + k (R48). (Memory is canonical by the invariant `State.Inv`.) -/
def Obligations.LoadWritesOnlyTheImage : Prop :=
  ∀ (s : State) (image : List Byte), s.Mem.wf s.font = true → image.length ≤ 3584 →
    ∃ t, s.load (.bytes image) = .ok t ∧ t = { s with Mem := t.Mem } ∧
      (∀ k (h : k < image.length), t.readByte (0x200 + k) = image[k]) ∧
      (∀ a, a < 0x200 ∨ 0x200 + image.length ≤ a → t.readByte a = s.readByte a)

/-- R127: the two failures of loading, and that neither leaves a state from which a cycle could run. -/
def Obligations.LoadFailuresPreventExecution : Prop :=
  ∀ (font : Config.Font) (image : List Byte),
    (image.length > 3584 → boot font (.bytes image) = .error .programTooLarge) ∧
    boot font .unreadable = .error .programLoadIO ∧
    (∀ t, boot font (.bytes image) = .ok t → image.length ≤ 3584)

/-! ## Control transfer and skips -/

/-- R81 `00EE`: StackUnderflow at SP = 0; otherwise SP falls by 1 and pc receives the slot SP then names. The
jump flag stays as it was (decision D11, log entry 12). The failure is precise (decision D21, log entry 9). -/
def Obligations.RetPopsThePc : Prop :=
  ∀ s : State,
    (s.SP = 0 → exec .ret s = .next { s with run := .faulted .stackUnderflow }) ∧
    (∀ k : Fin 16, s.SP.val = k.val + 1 → ∃ t, exec .ret s = .next t ∧
      t.SP.val = k.val ∧ t.pc = s.Stack[k.val] ∧
      t = { s with SP := t.SP, pc := t.pc } ∧ s.sameMemory t)

/-- R82 `1nnn`: pc receives nnn, zero-extended, and the jump flag is set. No flag, no failure. A target of 0xFFF
makes the next fetch raise OutOfBounds(0x1000) (R71; the recorded address is decision D36, log entry 14). An odd
nnn is no exception (decision D13, log entry 13). -/
def Obligations.JpSetsThePc : Prop :=
  ∀ (nnn : Addr12) (s : State),
    (encode (.jp nnn)).toNat = 0x1000 + nnn.toNat ∧
    ∃ t, exec (.jp nnn) s = .next t ∧ t.pc.toNat = nnn.toNat ∧ t.jump = true ∧
      t = { s with pc := t.pc, jump := t.jump } ∧ s.sameMemory t ∧
      (nnn = 0xFFF → fetch t = .error (.outOfBounds 0x1000))

/-- R83 `2nnn`: StackOverflow at SP = 16; otherwise the CALL's own address is pushed, SP grows by 1, pc receives
nnn and the jump flag is set (decision D12, log entry 12). No other slot changes. The failure is precise
(decision D21, log entry 9). -/
def Obligations.CallPushesItsAddress : Prop :=
  ∀ (nnn : Addr12) (s : State),
    (s.SP = 16 → exec (.call nnn) s = .next { s with run := .faulted .stackOverflow }) ∧
    (∀ k : Fin 16, s.SP.val = k.val → ∃ t, exec (.call nnn) s = .next t ∧
      t.Stack[k.val] = s.pc ∧ (∀ j : Fin 16, j ≠ k → t.Stack[j.val] = s.Stack[j.val]) ∧
      t.SP.val = k.val + 1 ∧ t.pc.toNat = nnn.toNat ∧ t.jump = true ∧
      t = { s with Stack := t.Stack, SP := t.SP, pc := t.pc, jump := t.jump } ∧ s.sameMemory t)

/-- The pair of 90_conflicts.md C4: after a CALL and any code that leaves the stack as it found it, a RET puts
back SP and gives pc the CALL's own address, so that step 6 goes on after the CALL (decision D11, log entry 12).
-/
def Obligations.RetUndoesCall : Prop :=
  ∀ (nnn : Addr12) (s t t' : State), s.SP ≠ 16 → exec (.call nnn) s = .next t →
    t'.SP = t.SP → t'.Stack = t.Stack →
    ∃ u, exec .ret t' = .next u ∧ u.SP = s.SP ∧ u.pc = s.pc ∧ u.jump = t'.jump ∧ u.run = t'.run

/-- R84 `Bnnn`: pc receives nnn + V0 as an exact sum, at most 0x10FE, and the jump flag is set (decision D12,
log entry 12). The register is V0 whatever bits 11..8 hold. -/
def Obligations.JpOffsetAddsV0 : Prop :=
  ∀ (nnn : Addr12) (s : State), ∃ t, exec (.jpV0 nnn) s = .next t ∧
    t.pc.toNat = nnn.toNat + (s.readV 0).toNat ∧ t.jump = true ∧
    t = { s with pc := t.pc, jump := t.jump } ∧ s.sameMemory t

/-- R85 `3xkk`: skip if Vx = kk. A taken skip adds 2 to pc. The whole cycle of a taken skip at 0xFFC ends with
pc = 0x1000, and the fetch there raises OutOfBounds(0x1000) (R71, R76; the recorded address is decision D36, log
entry 14). It holds also of a cycle whose refresh reports quit: that such a cycle still advances pc is decision
D20 (log entry 19). -/
def Obligations.SkipIfEqualImmediate : Prop :=
  ∀ (x : Reg) (kk : Byte) (s : State),
    (encode (.seImm x kk)).toNat = 0x3000 + x.val * 0x100 + kk.toNat ∧
    (s.readV x = kk → exec (.seImm x kk) s = .next { s with pc := s.pc + 2 }) ∧
    (s.readV x ≠ kk → exec (.seImm x kk) s = .next s) ∧
    (s.live → fetchInstr s = .ok (.seImm x kk) → s.readV x = kk → s.pc = 0xFFC →
      ∃ u, step s = .next u ∧ u.pc = 0x1000 ∧ fetch u = .error (.outOfBounds 0x1000))

/-- R86 `4xkk`: skip if Vx ≠ kk. The corner case is that of R85: the whole cycle of a taken skip at 0xFFC ends
with pc = 0x1000, and the fetch there raises OutOfBounds(0x1000) (R71, R76; the recorded address is decision
D36, log entry 14). It holds also of a cycle whose refresh reports quit: that such a cycle still advances pc is
decision D20 (log entry 19). -/
def Obligations.SkipIfNotEqualImmediate : Prop :=
  ∀ (x : Reg) (kk : Byte) (s : State),
    (encode (.sneImm x kk)).toNat = 0x4000 + x.val * 0x100 + kk.toNat ∧
    (s.readV x ≠ kk → exec (.sneImm x kk) s = .next { s with pc := s.pc + 2 }) ∧
    (s.readV x = kk → exec (.sneImm x kk) s = .next s) ∧
    (s.live → fetchInstr s = .ok (.sneImm x kk) → s.readV x ≠ kk → s.pc = 0xFFC →
      ∃ u, step s = .next u ∧ u.pc = 0x1000 ∧ fetch u = .error (.outOfBounds 0x1000))

/-- R87 `5xy0`: skip if Vx = Vy; x = y always skips. That a low nibble other than 0 is illegal (R64) is decision
D24 (log entry 20). -/
def Obligations.SkipIfRegistersEqual : Prop :=
  ∀ (x y : Reg) (s : State),
    (encode (.seReg x y)).toNat = 0x5000 + x.val * 0x100 + y.val * 0x10 ∧
    (∀ n : Nibble, n ≠ 0 →
      decode (encode (.seReg x y) ||| n.setWidth 16) = .error (.unknownOpcode (encode (.seReg x y) ||| n.setWidth 16))) ∧
    (s.readV x = s.readV y → exec (.seReg x y) s = .next { s with pc := s.pc + 2 }) ∧
    (s.readV x ≠ s.readV y → exec (.seReg x y) s = .next s) ∧
    exec (.seReg x x) s = .next { s with pc := s.pc + 2 }

/-- R88 `9xy0`: skip if Vx ≠ Vy; x = y never skips. That a low nibble other than 0 is illegal (R64) is decision
D24 (log entry 20). -/
def Obligations.SkipIfRegistersDiffer : Prop :=
  ∀ (x y : Reg) (s : State),
    (encode (.sneReg x y)).toNat = 0x9000 + x.val * 0x100 + y.val * 0x10 ∧
    (∀ n : Nibble, n ≠ 0 →
      decode (encode (.sneReg x y) ||| n.setWidth 16) = .error (.unknownOpcode (encode (.sneReg x y) ||| n.setWidth 16))) ∧
    (s.readV x ≠ s.readV y → exec (.sneReg x y) s = .next { s with pc := s.pc + 2 }) ∧
    (s.readV x = s.readV y → exec (.sneReg x y) s = .next s) ∧
    exec (.sneReg x x) s = .next s

/-! ## Register and ALU instructions -/

/-- R90 `6xkk`: Vx receives kk; VF changes only when x = 0xF. -/
def Obligations.LoadImmediate : Prop :=
  ∀ (x : Reg) (kk : Byte) (s : State),
    (encode (.ldImm x kk)).toNat = 0x6000 + x.val * 0x100 + kk.toNat ∧
    ∃ t, exec (.ldImm x kk) s = .next t ∧
      (∀ r, t.readV r = if r = x then kk else s.readV r) ∧
      t = { s with V := t.V } ∧ s.sameMemory t

/-- R91 `7xkk`: Vx receives (Vx + kk) mod 256, with no flag. -/
def Obligations.AddImmediateWithoutFlag : Prop :=
  ∀ (x : Reg) (kk : Byte) (s : State),
    (encode (.addImm x kk)).toNat = 0x7000 + x.val * 0x100 + kk.toNat ∧
    ∃ t, exec (.addImm x kk) s = .next t ∧
      (t.readV x).toNat = ((s.readV x).toNat + kk.toNat) % 256 ∧
      (∀ r, r ≠ x → t.readV r = s.readV r) ∧
      t = { s with V := t.V } ∧ s.sameMemory t

/-- R92 `8xy0`: Vx receives Vy. -/
def Obligations.CopyRegister : Prop :=
  ∀ (x y : Reg) (s : State),
    (encode (.ldReg x y)).toNat = 0x8000 + x.val * 0x100 + y.val * 0x10 ∧
    ∃ t, exec (.ldReg x y) s = .next t ∧
      (∀ r, t.readV r = if r = x then s.readV y else s.readV r) ∧
      t = { s with V := t.V } ∧ s.sameMemory t

/-- R93, R94, R95 `8xy1`, `8xy2`, `8xy3`: bitwise OR, AND and XOR, bit by bit, of Vx and Vy into Vx. That VF is
not reset is decision D10 (log entry 11). -/
def Obligations.LogicWritesVxAlone : Prop :=
  ∀ (x y : Reg) (s : State),
    (∃ t, exec (.orReg x y) s = .next t ∧
      (∀ b, (t.readV x).getLsbD b = ((s.readV x).getLsbD b || (s.readV y).getLsbD b)) ∧
      (∀ r, r ≠ x → t.readV r = s.readV r) ∧ t = { s with V := t.V } ∧ s.sameMemory t) ∧
    (∃ t, exec (.andReg x y) s = .next t ∧
      (∀ b, (t.readV x).getLsbD b = ((s.readV x).getLsbD b && (s.readV y).getLsbD b)) ∧
      (∀ r, r ≠ x → t.readV r = s.readV r) ∧ t = { s with V := t.V } ∧ s.sameMemory t) ∧
    (∃ t, exec (.xorReg x y) s = .next t ∧
      (∀ b, (t.readV x).getLsbD b = ((s.readV x).getLsbD b ^^ (s.readV y).getLsbD b)) ∧
      (∀ r, r ≠ x → t.readV r = s.readV r) ∧ t = { s with V := t.V } ∧ s.sameMemory t)

/-- R96 `8xy4`: Vx receives the sum mod 256 and then VF 1 if the exact sum exceeds 255, else 0. Both operands
are read before any write, so with x = 0xF VF ends as the carry, and with y = 0xF the old VF is the addend. -/
def Obligations.AddSetsCarry : Prop :=
  ∀ (x y : Reg) (s : State),
    (encode (.addReg x y)).toNat = 0x8000 + x.val * 0x100 + y.val * 0x10 + 4 ∧
    ∃ t, exec (.addReg x y) s = .next t ∧
      (t.readV VF).toNat = (if (s.readV x).toNat + (s.readV y).toNat > 255 then 1 else 0) ∧
      (x ≠ VF → (t.readV x).toNat = ((s.readV x).toNat + (s.readV y).toNat) % 256) ∧
      (∀ r, r ≠ x → r ≠ VF → t.readV r = s.readV r) ∧
      t = { s with V := t.V } ∧ s.sameMemory t

/-- R97 `8xy5`: Vx receives (Vx - Vy) mod 256 and then VF 1 if Vx > Vy, strictly, else 0. That VF ends as the
flag when x = 0xF is decision D9 (log entry 10). -/
def Obligations.SubSetsNotBorrow : Prop :=
  ∀ (x y : Reg) (s : State), ∃ t, exec (.sub x y) s = .next t ∧
    (t.readV VF).toNat = (if (s.readV x).toNat > (s.readV y).toNat then 1 else 0) ∧
    (x ≠ VF → (t.readV x).toNat = ((s.readV x).toNat + 256 - (s.readV y).toNat) % 256) ∧
    (∀ r, r ≠ x → r ≠ VF → t.readV r = s.readV r) ∧
    t = { s with V := t.V } ∧ s.sameMemory t

/-- R99 `8xy7`: Vx receives (Vy - Vx) mod 256 and then VF 1 if Vy > Vx, strictly, else 0. That VF ends as the
flag when x = 0xF is decision D9 (log entry 10). -/
def Obligations.SubnSetsNotBorrow : Prop :=
  ∀ (x y : Reg) (s : State), ∃ t, exec (.subn x y) s = .next t ∧
    (t.readV VF).toNat = (if (s.readV y).toNat > (s.readV x).toNat then 1 else 0) ∧
    (x ≠ VF → (t.readV x).toNat = ((s.readV y).toNat + 256 - (s.readV x).toNat) % 256) ∧
    (∀ r, r ≠ x → r ≠ VF → t.readV r = s.readV r) ∧
    t = { s with V := t.V } ∧ s.sameMemory t

/-- R98 `8xy6`: Vx receives Vx / 2 and then VF bit 0 of the old Vx; y has no effect. That VF ends as the bit
when x = 0xF is decision D9 (log entry 10). -/
def Obligations.ShrSetsLowBit : Prop :=
  ∀ (x y : Reg) (s : State), ∃ t, exec (.shr x y) s = .next t ∧
    (t.readV VF).toNat = (s.readV x).toNat % 2 ∧
    (x ≠ VF → (t.readV x).toNat = (s.readV x).toNat / 2) ∧
    (∀ r, r ≠ x → r ≠ VF → t.readV r = s.readV r) ∧
    t = { s with V := t.V } ∧ s.sameMemory t

/-- R100 `8xyE`: Vx receives (2 Vx) mod 256 and then VF bit 7 of the old Vx; y has no effect. That VF ends as
the bit when x = 0xF is decision D9 (log entry 10). -/
def Obligations.ShlSetsHighBit : Prop :=
  ∀ (x y : Reg) (s : State), ∃ t, exec (.shl x y) s = .next t ∧
    (t.readV VF).toNat = (s.readV x).toNat / 128 ∧
    (x ≠ VF → (t.readV x).toNat = (s.readV x).toNat * 2 % 256) ∧
    (∀ r, r ≠ x → r ≠ VF → t.readV r = s.readV r) ∧
    t = { s with V := t.V } ∧ s.sameMemory t

/-- R101 `Cxkk`: Vx receives the random byte under the mask kk. The byte is an input under no law (R142,
decision D23, log entry 4): whatever byte is asked for, some inputs give it. kk = 0 gives 0 whatever the draw.
-/
def Obligations.RandomByteUnderMask : Prop :=
  ∀ (x : Reg) (kk : Byte) (s : State),
    (encode (.rnd x kk)).toNat = 0xC000 + x.val * 0x100 + kk.toNat ∧
    (∃ t, exec (.rnd x kk) s = .next t ∧
      (∀ r, t.readV r = if r = x then s.input.rnd &&& kk else s.readV r) ∧
      (kk = 0 → t.readV x = 0) ∧
      t = { s with V := t.V } ∧ s.sameMemory t) ∧
    (∀ byte : Byte, ∃ l t, exec (.rnd x kk) { s with inputs := l } = .next t ∧ t.readV x = byte &&& kk)

/-! ## Index register and memory -/

/-- R104 `Annn`: I receives nnn, its upper 4 bits 0. -/
def Obligations.LoadIndex : Prop :=
  ∀ (nnn : Addr12) (s : State),
    (encode (.ldI nnn)).toNat = 0xA000 + nnn.toNat ∧
    ∃ t, exec (.ldI nnn) s = .next t ∧ t.I.toNat = nnn.toNat ∧
      t = { s with I := t.I } ∧ s.sameMemory t

/-- R105 `Fx1E`: I receives (I + Vx) mod 2^16, VF unchanged. That the sum wraps at 16 bits is decision D16 (log
entry 15). -/
def Obligations.AddToIndex : Prop :=
  ∀ (x : Reg) (s : State), ∃ t, exec (.addI x) s = .next t ∧
    t.I.toNat = (s.I.toNat + (s.readV x).toNat) % 65536 ∧
    t = { s with I := t.I } ∧ s.sameMemory t

/-- R106 `Fx29`: I receives FONT_BASE + 5 Vx, for every FONT_BASE; the sum never wraps. That Vx is not masked is
decision D38 (log entry 22). -/
def Obligations.PointAtGlyph : Prop :=
  ∀ (x : Reg) (s : State), ∃ t, exec (.ldF x) s = .next t ∧
    t.I.toNat = s.font.base.val + 5 * (s.readV x).toNat ∧
    t = { s with I := t.I } ∧ s.sameMemory t

/-- R107 `Fx33`: the decimal digits of Vx at I, I+1 and I+2, or OutOfBounds at the lowest of the three addresses
above 0xFFF with no byte written. I is unchanged. The next fetch sees the bytes (R53). (Memory is canonical by
the invariant `State.Inv`.) The recorded address is decision D36 and that I + k does not wrap is decision D15
(log entry 14); that the failure changes nothing but the run state is decision D21 (log entry 9). -/
def Obligations.StoreBcdDigits : Prop :=
  ∀ (x : Reg) (s : State), s.Mem.wf s.font = true →
    (encode (.ldB x)).toNat = 0xF033 + x.val * 0x100 ∧
    (s.I.toNat + 2 > 0xFFF →
      exec (.ldB x) s = .next { s with run := .faulted (.outOfBounds (max s.I.toNat 0x1000)) }) ∧
    (s.I.toNat + 2 ≤ 0xFFF → ∃ t, exec (.ldB x) s = .next t ∧
      (t.readByte s.I.toNat).toNat = (s.readV x).toNat / 100 ∧
      (t.readByte (s.I.toNat + 1)).toNat = (s.readV x).toNat / 10 % 10 ∧
      (t.readByte (s.I.toNat + 2)).toNat = (s.readV x).toNat % 10 ∧
      (∀ a, a < s.I.toNat ∨ s.I.toNat + 2 < a → t.readByte a = s.readByte a) ∧
      t = { s with Mem := t.Mem } ∧
      ∀ pc : Word, pc.toNat = s.I.toNat →
        ∃ w : Word, fetch { t with pc := pc } = .ok w ∧
          w.toNat = (s.readV x).toNat / 100 * 256 + (s.readV x).toNat / 10 % 10)

/-- R108 `Fx55`: V0 to Vx at I to I+x, in ascending order, or OutOfBounds(max(I, 0x1000)) with no byte written.
I is unchanged (decision D17, log entry 16). (Memory is canonical by the invariant `State.Inv`.) The recorded
address is decision D36 and that I + k does not wrap is decision D15 (log entry 14); that the failure changes
nothing but the run state is decision D21 (log entry 9). -/
def Obligations.StoreRegisters : Prop :=
  ∀ (x : Reg) (s : State), s.Mem.wf s.font = true →
    (s.I.toNat + x.val > 0xFFF →
      exec (.ldMemVx x) s = .next { s with run := .faulted (.outOfBounds (max s.I.toNat 0x1000)) }) ∧
    (s.I.toNat + x.val ≤ 0xFFF → ∃ t, exec (.ldMemVx x) s = .next t ∧
      (∀ k : Reg, k ≤ x → t.readByte (s.I.toNat + k.val) = s.readV k) ∧
      (∀ a, a < s.I.toNat ∨ s.I.toNat + x.val < a → t.readByte a = s.readByte a) ∧
      t = { s with Mem := t.Mem })

/-- R109 `Fx65`: V0 to Vx from I to I+x, or OutOfBounds(max(I, 0x1000)) with no register written. Registers
above Vx are unchanged, and so is I (decision D17, log entry 16). The recorded address is decision D36 and that
I + k does not wrap is decision D15 (log entry 14); that the failure changes nothing but the run state is
decision D21 (log entry 9). -/
def Obligations.LoadRegisters : Prop :=
  ∀ (x : Reg) (s : State),
    (s.I.toNat + x.val > 0xFFF →
      exec (.ldVxMem x) s = .next { s with run := .faulted (.outOfBounds (max s.I.toNat 0x1000)) }) ∧
    (s.I.toNat + x.val ≤ 0xFFF → ∃ t, exec (.ldVxMem x) s = .next t ∧
      (∀ k : Reg, k ≤ x → t.readV k = s.readByte (s.I.toNat + k.val)) ∧
      (∀ k : Reg, x < k → t.readV k = s.readV k) ∧
      t = { s with V := t.V } ∧ s.sameMemory t)

/-! ## Display -/

/-- R115 and R112 `00E0`: every pixel becomes 0 and a redraw is flagged, even when the buffer was clear. VF is
unchanged. -/
def Obligations.ClearBlanksTheScreen : Prop :=
  ∀ s : State, (encode .cls).toNat = 0x00E0 ∧
    ∃ t, exec .cls s = .next t ∧ (∀ row col, t.FB.pixel row col = false) ∧ t.redraw = true ∧
      t = { s with FB := t.FB, redraw := t.redraw } ∧ s.sameMemory t

/-- R116 `Dxyn`: OutOfBounds(max(I, 0x1000)) when n > 0 and I + n - 1 exceeds 0xFFF; otherwise the n bytes from
I (the half-open range of decision D33, log entry 22) are drawn at (Vx, Vy) as they stood before, VF receives
the collision, 1 or 0, and a redraw is flagged. With n = 0 no pixel changes and VF is 0. The recorded address is
decision D36 and that I + k does not wrap is decision D15 (log entry 14); that the failure changes nothing but
the run state is decision D21 (log entry 9). -/
def Obligations.DrawFromMemory : Prop :=
  ∀ (x y : Reg) (n : Fin 16) (s : State),
    (0 < n.val → s.I.toNat + n.val - 1 > 0xFFF →
      exec (.drw x y n) s = .next { s with run := .faulted (.outOfBounds (max s.I.toNat 0x1000)) }) ∧
    (n.val = 0 ∨ s.I.toNat + n.val - 1 ≤ 0xFFF →
      ∃ (bytes : List Byte) (t : State), bytes.length = n.val ∧
        (∀ k (h : k < bytes.length), bytes[k] = s.readByte (s.I.toNat + k)) ∧
        exec (.drw x y n) s = .next t ∧
        t.FB = (drawSprite s.FB (s.readV x) (s.readV y) bytes).fb ∧
        (t.readV VF).toNat = (if (drawSprite s.FB (s.readV x) (s.readV y) bytes).collision then 1 else 0) ∧
        (∀ r, r ≠ VF → t.readV r = s.readV r) ∧ t.redraw = true ∧
        t = { s with FB := t.FB, V := t.V, redraw := t.redraw } ∧ s.sameMemory t ∧
        (n.val = 0 → t.FB = s.FB ∧ t.readV VF = 0))

/-- R113, pixel by pixel: `draw_sprite` toggles the pixel at column (x + j) mod 64, row (y + i) mod 32 exactly
when the sprite's bit (i, j) is 1, leaves every other pixel alone, and reports a collision exactly when a 1 met
a 1. That bit-column j is bit 7 - j is decision D25 (log entry 21). A sprite has at most 15 rows (R57). -/
def Obligations.DrawSpritePixelByPixel : Prop :=
  ∀ (fb : Screen) (x y : Byte) (bytes : List Byte), bytes.length ≤ 15 →
    (∀ (i : Nat) (h : i < bytes.length) (j : Nat) (row : Fin 32) (col : Fin 64), j < 8 →
      row.val = (y.toNat + i) % 32 → col.val = (x.toNat + j) % 64 →
      (drawSprite fb x y bytes).fb.pixel row col = (fb.pixel row col ^^ bytes[i].getLsbD (7 - j))) ∧
    (∀ row col, (∀ i j, i < bytes.length → j < 8 →
        ¬ (row.val = (y.toNat + i) % 32 ∧ col.val = (x.toNat + j) % 64)) →
      (drawSprite fb x y bytes).fb.pixel row col = fb.pixel row col) ∧
    ((drawSprite fb x y bytes).collision = true ↔
      ∃ (i : Nat) (h : i < bytes.length) (j : Nat) (row : Fin 32) (col : Fin 64), j < 8 ∧
        row.val = (y.toNat + i) % 32 ∧ col.val = (x.toNat + j) % 64 ∧
        bytes[i].getLsbD (7 - j) = true ∧ fb.pixel row col = true)

/-- R114: drawing the same sprite twice at the same place restores the buffer. The second draw collides exactly
when some set bit of the sprite met a 0 before the first draw. (R114's derived sentence says "exactly when the
sprite has at least one set bit"; by R113 that holds only where the first draw set such a pixel: log entry 7.
The bit order is decision D25, log entry 21.) -/
def Obligations.DrawTwiceRestoresTheScreen : Prop :=
  ∀ (fb : Screen) (x y : Byte) (bytes : List Byte), bytes.length ≤ 15 →
    (drawSprite (drawSprite fb x y bytes).fb x y bytes).fb = fb ∧
    ((drawSprite (drawSprite fb x y bytes).fb x y bytes).collision = true ↔
      ∃ (i : Nat) (h : i < bytes.length) (j : Nat) (row : Fin 32) (col : Fin 64), j < 8 ∧
        row.val = (y.toNat + i) % 32 ∧ col.val = (x.toNat + j) % 64 ∧
        bytes[i].getLsbD (7 - j) = true ∧ fb.pixel row col = false)

/-- R73 and R157: the render shows the buffer with that cycle's `00E0` or `Dxyn` applied, and a cycle that does
not draw does not render. `frames`, what the frontend has received with the newest first, is the model's record
(log entry 6). That a failed cycle renders nothing (R129) is decision D21 (log entry 9). A waiting cycle does
not draw, and renders nothing either. -/
def Obligations.DrawIsRenderedInItsCycle : Prop :=
  ∀ (s u : State) (i : Instr), s.live → fetchInstr s = .ok i → step s = .next u →
    (draws i = true → failureOf i s = none → u.frames = u.FB :: s.frames) ∧
    (draws i = false → u.frames = s.frames) ∧
    (∀ kind, failureOf i s = some kind → u.frames = s.frames)

/-! ## Keys and timers -/

/-- R118 and R119 `Ex9E`, `ExA1`: KeyIndexOutOfRange(Vx) when Vx exceeds 15 (decision D18, log entry 17; the
recorded value is decision D36, log entry 14; the failure is precise, decision D21, log entry 9); otherwise a
skip if the snapshot has the key down, respectively not down, and nothing else. -/
def Obligations.SkipOnKeySnapshot : Prop :=
  ∀ (x : Reg) (s : State),
    ((s.readV x).toNat > 15 →
      exec (.skp x) s = .next { s with run := .faulted (.keyIndexOutOfRange (s.readV x)) } ∧
      exec (.sknp x) s = .next { s with run := .faulted (.keyIndexOutOfRange (s.readV x)) }) ∧
    (∀ k : Key, (s.readV x).toNat = k.val →
      (s.keys[k.val] = true → exec (.skp x) s = .next { s with pc := s.pc + 2 } ∧ exec (.sknp x) s = .next s) ∧
      (s.keys[k.val] = false → exec (.skp x) s = .next s ∧ exec (.sknp x) s = .next { s with pc := s.pc + 2 }))

/-- R120 `Fx07`: Vx receives DT, as it stood before this cycle's decay. The direction of the transfer is the
reading of 90_conflicts.md C6 (log entry 22). -/
def Obligations.ReadDelayTimer : Prop :=
  ∀ (x : Reg) (s : State),
    (encode (.ldVxDT x)).toNat = 0xF007 + x.val * 0x100 ∧
    ∃ t, exec (.ldVxDT x) s = .next t ∧
      (∀ r, t.readV r = if r = x then s.DT else s.readV r) ∧
      t = { s with V := t.V } ∧ s.sameMemory t

/-- R156 and R120: a cycle's instruction never sees its own timer decrement: the cycle of a `Fx07` leaves in Vx
the DT of the cycle before. DT itself then falls by 1, floored at 0, on a tick (R77), which is an input by
decision D22 (log entry 19). It holds also of a cycle whose refresh reports quit: that such a cycle still ticks
is decision D20 (log entry 19). -/
def Obligations.ReadPrecedesTheDecay : Prop :=
  ∀ (s : State) (x : Reg), s.live → fetchInstr s = .ok (.ldVxDT x) →
    ∃ u, step s = .next u ∧ u.readV x = s.DT ∧
      (s.input.tick = true → u.DT.toNat = s.DT.toNat - 1) ∧ (s.input.tick = false → u.DT = s.DT)

/-- R122 and R123 `Fx15`, `Fx18`: DT, respectively ST, receives Vx, and nothing else changes. The direction of
the transfers is the reading of 90_conflicts.md C6 (log entry 22). -/
def Obligations.SetTimers : Prop :=
  ∀ (x : Reg) (s : State),
    (encode (.ldDTVx x)).toNat = 0xF015 + x.val * 0x100 ∧
    (encode (.ldSTVx x)).toNat = 0xF018 + x.val * 0x100 ∧
    (∃ t, exec (.ldDTVx x) s = .next t ∧ t.DT = s.readV x ∧ t = { s with DT := t.DT } ∧ s.sameMemory t) ∧
    (∃ t, exec (.ldSTVx x) s = .next t ∧ t.ST = s.readV x ∧ t = { s with ST := t.ST } ∧ s.sameMemory t)

/-- R124 (the spec's derivation): a value written by `Fx15` or `Fx18` is decremented in the same cycle when
there is a tick, floored at 0, and one tick decrements both timers (R77). The tick is an input by decision D22
(log entry 19). It holds also of a cycle whose refresh reports quit: that such a cycle still ticks is decision
D20 (log entry 19). -/
def Obligations.SetTimerDecaysInItsCycle : Prop :=
  ∀ (s : State) (x : Reg), s.live → s.input.tick = true →
    (fetchInstr s = .ok (.ldDTVx x) → ∃ u, step s = .next u ∧
      u.DT.toNat = (s.readV x).toNat - 1 ∧ u.ST.toNat = s.ST.toNat - 1) ∧
    (fetchInstr s = .ok (.ldSTVx x) → ∃ u, step s = .next u ∧
      u.ST.toNat = (s.readV x).toNat - 1 ∧ u.DT.toNat = s.DT.toNat - 1)

/-- R121 `Fx0A`, the execute step: a key is written to Vx, and the run leaves `AwaitingKey`; with no key yet the
run awaits one (decision D29); an abort halts it (decision D19). Any key may answer (decision D31). The three
are log entry 18. Nothing else changes. -/
def Obligations.KeyWaitAnswers : Prop :=
  ∀ (x : Reg) (s : State),
    (∀ k, s.input.wait = .key k → ∃ t, exec (.ldVxK x) s = .next t ∧
      (t.readV x).toNat = k.val ∧ (∀ r, r ≠ x → t.readV r = s.readV r) ∧ t.run = .running ∧
      t = { s with V := t.V, run := t.run } ∧ s.sameMemory t) ∧
    (s.input.wait = .pending → exec (.ldVxK x) s = .next { s with run := .awaitingKey }) ∧
    (s.input.wait = .abort → exec (.ldVxK x) s = .next { s with run := .halted })

/-- R121 and R137, the whole cycle: an unanswered wait leaves everything but the run state alone, with no
refresh, advance or tick, so that the next cycle asks again (decision D29, log entry 18); an abort halts the run
the same way (decision D19, log entry 18); an answered one goes on, and the run halts after it exactly on a quit
(decision D20, log entry 19). That the unanswered cycle uses up its inputs is the model's (log entry 4). -/
def Obligations.KeyWaitSuspendsTheCycle : Prop :=
  ∀ (s : State) (x : Reg), s.live → fetchInstr s = .ok (.ldVxK x) →
    (s.input.wait = .pending →
      step s = .next { s with run := .awaitingKey, inputs := s.inputs.tail, used := s.used + 1 }) ∧
    (s.input.wait = .abort → step s = .next { s with run := .halted }) ∧
    (∀ k, s.input.wait = .key k → ∃ u, step s = .next u ∧ u.readV x = BitVec.ofNat 8 k.val ∧
      u.pc = s.pc + 2 ∧ u.run = if s.input.quit then .halted else .running)
end

