-- ==== Sys2Proof/Laws/State.lean ====
section
/-! SUPPORT. One lemma per field per update of the state: what each named update leaves each field at. With
them no proof unfolds a record update. -/

namespace Sys2Proof.Machine

/-! ### writeV -/

@[simp] theorem State.writeV_V (s : State) (r : Reg) (b : Byte) : (s.writeV r b).V = s.V.set r.val b := rfl
@[simp] theorem State.writeV_I (s : State) (r : Reg) (b : Byte) : (s.writeV r b).I = s.I := rfl
@[simp] theorem State.writeV_pc (s : State) (r : Reg) (b : Byte) : (s.writeV r b).pc = s.pc := rfl
@[simp] theorem State.writeV_SP (s : State) (r : Reg) (b : Byte) : (s.writeV r b).SP = s.SP := rfl
@[simp] theorem State.writeV_Stack (s : State) (r : Reg) (b : Byte) : (s.writeV r b).Stack = s.Stack := rfl
@[simp] theorem State.writeV_DT (s : State) (r : Reg) (b : Byte) : (s.writeV r b).DT = s.DT := rfl
@[simp] theorem State.writeV_ST (s : State) (r : Reg) (b : Byte) : (s.writeV r b).ST = s.ST := rfl
@[simp] theorem State.writeV_Mem (s : State) (r : Reg) (b : Byte) : (s.writeV r b).Mem = s.Mem := rfl
@[simp] theorem State.writeV_FB (s : State) (r : Reg) (b : Byte) : (s.writeV r b).FB = s.FB := rfl
@[simp] theorem State.writeV_run (s : State) (r : Reg) (b : Byte) : (s.writeV r b).run = s.run := rfl
@[simp] theorem State.writeV_keys (s : State) (r : Reg) (b : Byte) : (s.writeV r b).keys = s.keys := rfl
@[simp] theorem State.writeV_jump (s : State) (r : Reg) (b : Byte) : (s.writeV r b).jump = s.jump := rfl
@[simp] theorem State.writeV_redraw (s : State) (r : Reg) (b : Byte) : (s.writeV r b).redraw = s.redraw := rfl
@[simp] theorem State.writeV_frames (s : State) (r : Reg) (b : Byte) : (s.writeV r b).frames = s.frames := rfl
@[simp] theorem State.writeV_inputs (s : State) (r : Reg) (b : Byte) : (s.writeV r b).inputs = s.inputs := rfl
@[simp] theorem State.writeV_used (s : State) (r : Reg) (b : Byte) : (s.writeV r b).used = s.used := rfl
@[simp] theorem State.writeV_font (s : State) (r : Reg) (b : Byte) : (s.writeV r b).font = s.font := rfl

/-! ### writeI -/

@[simp] theorem State.writeI_V (s : State) (w : Word) : (s.writeI w).V = s.V := rfl
@[simp] theorem State.writeI_I (s : State) (w : Word) : (s.writeI w).I = w := rfl
@[simp] theorem State.writeI_pc (s : State) (w : Word) : (s.writeI w).pc = s.pc := rfl
@[simp] theorem State.writeI_SP (s : State) (w : Word) : (s.writeI w).SP = s.SP := rfl
@[simp] theorem State.writeI_Stack (s : State) (w : Word) : (s.writeI w).Stack = s.Stack := rfl
@[simp] theorem State.writeI_DT (s : State) (w : Word) : (s.writeI w).DT = s.DT := rfl
@[simp] theorem State.writeI_ST (s : State) (w : Word) : (s.writeI w).ST = s.ST := rfl
@[simp] theorem State.writeI_Mem (s : State) (w : Word) : (s.writeI w).Mem = s.Mem := rfl
@[simp] theorem State.writeI_FB (s : State) (w : Word) : (s.writeI w).FB = s.FB := rfl
@[simp] theorem State.writeI_run (s : State) (w : Word) : (s.writeI w).run = s.run := rfl
@[simp] theorem State.writeI_keys (s : State) (w : Word) : (s.writeI w).keys = s.keys := rfl
@[simp] theorem State.writeI_jump (s : State) (w : Word) : (s.writeI w).jump = s.jump := rfl
@[simp] theorem State.writeI_redraw (s : State) (w : Word) : (s.writeI w).redraw = s.redraw := rfl
@[simp] theorem State.writeI_frames (s : State) (w : Word) : (s.writeI w).frames = s.frames := rfl
@[simp] theorem State.writeI_inputs (s : State) (w : Word) : (s.writeI w).inputs = s.inputs := rfl
@[simp] theorem State.writeI_used (s : State) (w : Word) : (s.writeI w).used = s.used := rfl
@[simp] theorem State.writeI_font (s : State) (w : Word) : (s.writeI w).font = s.font := rfl

/-! ### writePc -/

@[simp] theorem State.writePc_V (s : State) (a : Word) : (s.writePc a).V = s.V := rfl
@[simp] theorem State.writePc_I (s : State) (a : Word) : (s.writePc a).I = s.I := rfl
@[simp] theorem State.writePc_pc (s : State) (a : Word) : (s.writePc a).pc = a := rfl
@[simp] theorem State.writePc_SP (s : State) (a : Word) : (s.writePc a).SP = s.SP := rfl
@[simp] theorem State.writePc_Stack (s : State) (a : Word) : (s.writePc a).Stack = s.Stack := rfl
@[simp] theorem State.writePc_DT (s : State) (a : Word) : (s.writePc a).DT = s.DT := rfl
@[simp] theorem State.writePc_ST (s : State) (a : Word) : (s.writePc a).ST = s.ST := rfl
@[simp] theorem State.writePc_Mem (s : State) (a : Word) : (s.writePc a).Mem = s.Mem := rfl
@[simp] theorem State.writePc_FB (s : State) (a : Word) : (s.writePc a).FB = s.FB := rfl
@[simp] theorem State.writePc_run (s : State) (a : Word) : (s.writePc a).run = s.run := rfl
@[simp] theorem State.writePc_keys (s : State) (a : Word) : (s.writePc a).keys = s.keys := rfl
@[simp] theorem State.writePc_jump (s : State) (a : Word) : (s.writePc a).jump = s.jump := rfl
@[simp] theorem State.writePc_redraw (s : State) (a : Word) : (s.writePc a).redraw = s.redraw := rfl
@[simp] theorem State.writePc_frames (s : State) (a : Word) : (s.writePc a).frames = s.frames := rfl
@[simp] theorem State.writePc_inputs (s : State) (a : Word) : (s.writePc a).inputs = s.inputs := rfl
@[simp] theorem State.writePc_used (s : State) (a : Word) : (s.writePc a).used = s.used := rfl
@[simp] theorem State.writePc_font (s : State) (a : Word) : (s.writePc a).font = s.font := rfl

/-! ### jumpTo -/

@[simp] theorem State.jumpTo_V (s : State) (a : Word) : (s.jumpTo a).V = s.V := rfl
@[simp] theorem State.jumpTo_I (s : State) (a : Word) : (s.jumpTo a).I = s.I := rfl
@[simp] theorem State.jumpTo_pc (s : State) (a : Word) : (s.jumpTo a).pc = a := rfl
@[simp] theorem State.jumpTo_SP (s : State) (a : Word) : (s.jumpTo a).SP = s.SP := rfl
@[simp] theorem State.jumpTo_Stack (s : State) (a : Word) : (s.jumpTo a).Stack = s.Stack := rfl
@[simp] theorem State.jumpTo_DT (s : State) (a : Word) : (s.jumpTo a).DT = s.DT := rfl
@[simp] theorem State.jumpTo_ST (s : State) (a : Word) : (s.jumpTo a).ST = s.ST := rfl
@[simp] theorem State.jumpTo_Mem (s : State) (a : Word) : (s.jumpTo a).Mem = s.Mem := rfl
@[simp] theorem State.jumpTo_FB (s : State) (a : Word) : (s.jumpTo a).FB = s.FB := rfl
@[simp] theorem State.jumpTo_run (s : State) (a : Word) : (s.jumpTo a).run = s.run := rfl
@[simp] theorem State.jumpTo_keys (s : State) (a : Word) : (s.jumpTo a).keys = s.keys := rfl
@[simp] theorem State.jumpTo_jump (s : State) (a : Word) : (s.jumpTo a).jump = true := rfl
@[simp] theorem State.jumpTo_redraw (s : State) (a : Word) : (s.jumpTo a).redraw = s.redraw := rfl
@[simp] theorem State.jumpTo_frames (s : State) (a : Word) : (s.jumpTo a).frames = s.frames := rfl
@[simp] theorem State.jumpTo_inputs (s : State) (a : Word) : (s.jumpTo a).inputs = s.inputs := rfl
@[simp] theorem State.jumpTo_used (s : State) (a : Word) : (s.jumpTo a).used = s.used := rfl
@[simp] theorem State.jumpTo_font (s : State) (a : Word) : (s.jumpTo a).font = s.font := rfl

/-! ### writeDT -/

@[simp] theorem State.writeDT_V (s : State) (b : Byte) : (s.writeDT b).V = s.V := rfl
@[simp] theorem State.writeDT_I (s : State) (b : Byte) : (s.writeDT b).I = s.I := rfl
@[simp] theorem State.writeDT_pc (s : State) (b : Byte) : (s.writeDT b).pc = s.pc := rfl
@[simp] theorem State.writeDT_SP (s : State) (b : Byte) : (s.writeDT b).SP = s.SP := rfl
@[simp] theorem State.writeDT_Stack (s : State) (b : Byte) : (s.writeDT b).Stack = s.Stack := rfl
@[simp] theorem State.writeDT_DT (s : State) (b : Byte) : (s.writeDT b).DT = b := rfl
@[simp] theorem State.writeDT_ST (s : State) (b : Byte) : (s.writeDT b).ST = s.ST := rfl
@[simp] theorem State.writeDT_Mem (s : State) (b : Byte) : (s.writeDT b).Mem = s.Mem := rfl
@[simp] theorem State.writeDT_FB (s : State) (b : Byte) : (s.writeDT b).FB = s.FB := rfl
@[simp] theorem State.writeDT_run (s : State) (b : Byte) : (s.writeDT b).run = s.run := rfl
@[simp] theorem State.writeDT_keys (s : State) (b : Byte) : (s.writeDT b).keys = s.keys := rfl
@[simp] theorem State.writeDT_jump (s : State) (b : Byte) : (s.writeDT b).jump = s.jump := rfl
@[simp] theorem State.writeDT_redraw (s : State) (b : Byte) : (s.writeDT b).redraw = s.redraw := rfl
@[simp] theorem State.writeDT_frames (s : State) (b : Byte) : (s.writeDT b).frames = s.frames := rfl
@[simp] theorem State.writeDT_inputs (s : State) (b : Byte) : (s.writeDT b).inputs = s.inputs := rfl
@[simp] theorem State.writeDT_used (s : State) (b : Byte) : (s.writeDT b).used = s.used := rfl
@[simp] theorem State.writeDT_font (s : State) (b : Byte) : (s.writeDT b).font = s.font := rfl

/-! ### writeST -/

@[simp] theorem State.writeST_V (s : State) (b : Byte) : (s.writeST b).V = s.V := rfl
@[simp] theorem State.writeST_I (s : State) (b : Byte) : (s.writeST b).I = s.I := rfl
@[simp] theorem State.writeST_pc (s : State) (b : Byte) : (s.writeST b).pc = s.pc := rfl
@[simp] theorem State.writeST_SP (s : State) (b : Byte) : (s.writeST b).SP = s.SP := rfl
@[simp] theorem State.writeST_Stack (s : State) (b : Byte) : (s.writeST b).Stack = s.Stack := rfl
@[simp] theorem State.writeST_DT (s : State) (b : Byte) : (s.writeST b).DT = s.DT := rfl
@[simp] theorem State.writeST_ST (s : State) (b : Byte) : (s.writeST b).ST = b := rfl
@[simp] theorem State.writeST_Mem (s : State) (b : Byte) : (s.writeST b).Mem = s.Mem := rfl
@[simp] theorem State.writeST_FB (s : State) (b : Byte) : (s.writeST b).FB = s.FB := rfl
@[simp] theorem State.writeST_run (s : State) (b : Byte) : (s.writeST b).run = s.run := rfl
@[simp] theorem State.writeST_keys (s : State) (b : Byte) : (s.writeST b).keys = s.keys := rfl
@[simp] theorem State.writeST_jump (s : State) (b : Byte) : (s.writeST b).jump = s.jump := rfl
@[simp] theorem State.writeST_redraw (s : State) (b : Byte) : (s.writeST b).redraw = s.redraw := rfl
@[simp] theorem State.writeST_frames (s : State) (b : Byte) : (s.writeST b).frames = s.frames := rfl
@[simp] theorem State.writeST_inputs (s : State) (b : Byte) : (s.writeST b).inputs = s.inputs := rfl
@[simp] theorem State.writeST_used (s : State) (b : Byte) : (s.writeST b).used = s.used := rfl
@[simp] theorem State.writeST_font (s : State) (b : Byte) : (s.writeST b).font = s.font := rfl

/-! ### writeRegs -/

@[simp] theorem State.writeRegs_V (s : State) (bs : List Byte) : (s.writeRegs bs).V = writeRegsFrom s.V 0 bs := rfl
@[simp] theorem State.writeRegs_I (s : State) (bs : List Byte) : (s.writeRegs bs).I = s.I := rfl
@[simp] theorem State.writeRegs_pc (s : State) (bs : List Byte) : (s.writeRegs bs).pc = s.pc := rfl
@[simp] theorem State.writeRegs_SP (s : State) (bs : List Byte) : (s.writeRegs bs).SP = s.SP := rfl
@[simp] theorem State.writeRegs_Stack (s : State) (bs : List Byte) : (s.writeRegs bs).Stack = s.Stack := rfl
@[simp] theorem State.writeRegs_DT (s : State) (bs : List Byte) : (s.writeRegs bs).DT = s.DT := rfl
@[simp] theorem State.writeRegs_ST (s : State) (bs : List Byte) : (s.writeRegs bs).ST = s.ST := rfl
@[simp] theorem State.writeRegs_Mem (s : State) (bs : List Byte) : (s.writeRegs bs).Mem = s.Mem := rfl
@[simp] theorem State.writeRegs_FB (s : State) (bs : List Byte) : (s.writeRegs bs).FB = s.FB := rfl
@[simp] theorem State.writeRegs_run (s : State) (bs : List Byte) : (s.writeRegs bs).run = s.run := rfl
@[simp] theorem State.writeRegs_keys (s : State) (bs : List Byte) : (s.writeRegs bs).keys = s.keys := rfl
@[simp] theorem State.writeRegs_jump (s : State) (bs : List Byte) : (s.writeRegs bs).jump = s.jump := rfl
@[simp] theorem State.writeRegs_redraw (s : State) (bs : List Byte) : (s.writeRegs bs).redraw = s.redraw := rfl
@[simp] theorem State.writeRegs_frames (s : State) (bs : List Byte) : (s.writeRegs bs).frames = s.frames := rfl
@[simp] theorem State.writeRegs_inputs (s : State) (bs : List Byte) : (s.writeRegs bs).inputs = s.inputs := rfl
@[simp] theorem State.writeRegs_used (s : State) (bs : List Byte) : (s.writeRegs bs).used = s.used := rfl
@[simp] theorem State.writeRegs_font (s : State) (bs : List Byte) : (s.writeRegs bs).font = s.font := rfl

/-! ### writeMem -/

@[simp] theorem State.writeMem_V (s : State) (m : Memory) : (s.writeMem m).V = s.V := rfl
@[simp] theorem State.writeMem_I (s : State) (m : Memory) : (s.writeMem m).I = s.I := rfl
@[simp] theorem State.writeMem_pc (s : State) (m : Memory) : (s.writeMem m).pc = s.pc := rfl
@[simp] theorem State.writeMem_SP (s : State) (m : Memory) : (s.writeMem m).SP = s.SP := rfl
@[simp] theorem State.writeMem_Stack (s : State) (m : Memory) : (s.writeMem m).Stack = s.Stack := rfl
@[simp] theorem State.writeMem_DT (s : State) (m : Memory) : (s.writeMem m).DT = s.DT := rfl
@[simp] theorem State.writeMem_ST (s : State) (m : Memory) : (s.writeMem m).ST = s.ST := rfl
@[simp] theorem State.writeMem_Mem (s : State) (m : Memory) : (s.writeMem m).Mem = m := rfl
@[simp] theorem State.writeMem_FB (s : State) (m : Memory) : (s.writeMem m).FB = s.FB := rfl
@[simp] theorem State.writeMem_run (s : State) (m : Memory) : (s.writeMem m).run = s.run := rfl
@[simp] theorem State.writeMem_keys (s : State) (m : Memory) : (s.writeMem m).keys = s.keys := rfl
@[simp] theorem State.writeMem_jump (s : State) (m : Memory) : (s.writeMem m).jump = s.jump := rfl
@[simp] theorem State.writeMem_redraw (s : State) (m : Memory) : (s.writeMem m).redraw = s.redraw := rfl
@[simp] theorem State.writeMem_frames (s : State) (m : Memory) : (s.writeMem m).frames = s.frames := rfl
@[simp] theorem State.writeMem_inputs (s : State) (m : Memory) : (s.writeMem m).inputs = s.inputs := rfl
@[simp] theorem State.writeMem_used (s : State) (m : Memory) : (s.writeMem m).used = s.used := rfl
@[simp] theorem State.writeMem_font (s : State) (m : Memory) : (s.writeMem m).font = s.font := rfl

/-! ### writeSP -/

@[simp] theorem State.writeSP_V (s : State) (sp : Fin 17) : (s.writeSP sp).V = s.V := rfl
@[simp] theorem State.writeSP_I (s : State) (sp : Fin 17) : (s.writeSP sp).I = s.I := rfl
@[simp] theorem State.writeSP_pc (s : State) (sp : Fin 17) : (s.writeSP sp).pc = s.pc := rfl
@[simp] theorem State.writeSP_SP (s : State) (sp : Fin 17) : (s.writeSP sp).SP = sp := rfl
@[simp] theorem State.writeSP_Stack (s : State) (sp : Fin 17) : (s.writeSP sp).Stack = s.Stack := rfl
@[simp] theorem State.writeSP_DT (s : State) (sp : Fin 17) : (s.writeSP sp).DT = s.DT := rfl
@[simp] theorem State.writeSP_ST (s : State) (sp : Fin 17) : (s.writeSP sp).ST = s.ST := rfl
@[simp] theorem State.writeSP_Mem (s : State) (sp : Fin 17) : (s.writeSP sp).Mem = s.Mem := rfl
@[simp] theorem State.writeSP_FB (s : State) (sp : Fin 17) : (s.writeSP sp).FB = s.FB := rfl
@[simp] theorem State.writeSP_run (s : State) (sp : Fin 17) : (s.writeSP sp).run = s.run := rfl
@[simp] theorem State.writeSP_keys (s : State) (sp : Fin 17) : (s.writeSP sp).keys = s.keys := rfl
@[simp] theorem State.writeSP_jump (s : State) (sp : Fin 17) : (s.writeSP sp).jump = s.jump := rfl
@[simp] theorem State.writeSP_redraw (s : State) (sp : Fin 17) : (s.writeSP sp).redraw = s.redraw := rfl
@[simp] theorem State.writeSP_frames (s : State) (sp : Fin 17) : (s.writeSP sp).frames = s.frames := rfl
@[simp] theorem State.writeSP_inputs (s : State) (sp : Fin 17) : (s.writeSP sp).inputs = s.inputs := rfl
@[simp] theorem State.writeSP_used (s : State) (sp : Fin 17) : (s.writeSP sp).used = s.used := rfl
@[simp] theorem State.writeSP_font (s : State) (sp : Fin 17) : (s.writeSP sp).font = s.font := rfl

/-! ### writeSlot -/

@[simp] theorem State.writeSlot_V (s : State) (k : Fin 16) (a : Word) : (s.writeSlot k a).V = s.V := rfl
@[simp] theorem State.writeSlot_I (s : State) (k : Fin 16) (a : Word) : (s.writeSlot k a).I = s.I := rfl
@[simp] theorem State.writeSlot_pc (s : State) (k : Fin 16) (a : Word) : (s.writeSlot k a).pc = s.pc := rfl
@[simp] theorem State.writeSlot_SP (s : State) (k : Fin 16) (a : Word) : (s.writeSlot k a).SP = s.SP := rfl
@[simp] theorem State.writeSlot_Stack (s : State) (k : Fin 16) (a : Word) : (s.writeSlot k a).Stack = s.Stack.set k.val a := rfl
@[simp] theorem State.writeSlot_DT (s : State) (k : Fin 16) (a : Word) : (s.writeSlot k a).DT = s.DT := rfl
@[simp] theorem State.writeSlot_ST (s : State) (k : Fin 16) (a : Word) : (s.writeSlot k a).ST = s.ST := rfl
@[simp] theorem State.writeSlot_Mem (s : State) (k : Fin 16) (a : Word) : (s.writeSlot k a).Mem = s.Mem := rfl
@[simp] theorem State.writeSlot_FB (s : State) (k : Fin 16) (a : Word) : (s.writeSlot k a).FB = s.FB := rfl
@[simp] theorem State.writeSlot_run (s : State) (k : Fin 16) (a : Word) : (s.writeSlot k a).run = s.run := rfl
@[simp] theorem State.writeSlot_keys (s : State) (k : Fin 16) (a : Word) : (s.writeSlot k a).keys = s.keys := rfl
@[simp] theorem State.writeSlot_jump (s : State) (k : Fin 16) (a : Word) : (s.writeSlot k a).jump = s.jump := rfl
@[simp] theorem State.writeSlot_redraw (s : State) (k : Fin 16) (a : Word) : (s.writeSlot k a).redraw = s.redraw := rfl
@[simp] theorem State.writeSlot_frames (s : State) (k : Fin 16) (a : Word) : (s.writeSlot k a).frames = s.frames := rfl
@[simp] theorem State.writeSlot_inputs (s : State) (k : Fin 16) (a : Word) : (s.writeSlot k a).inputs = s.inputs := rfl
@[simp] theorem State.writeSlot_used (s : State) (k : Fin 16) (a : Word) : (s.writeSlot k a).used = s.used := rfl
@[simp] theorem State.writeSlot_font (s : State) (k : Fin 16) (a : Word) : (s.writeSlot k a).font = s.font := rfl

/-! ### raise -/

@[simp] theorem State.raise_V (s : State) (k : FailureKind) : (s.raise k).V = s.V := rfl
@[simp] theorem State.raise_I (s : State) (k : FailureKind) : (s.raise k).I = s.I := rfl
@[simp] theorem State.raise_pc (s : State) (k : FailureKind) : (s.raise k).pc = s.pc := rfl
@[simp] theorem State.raise_SP (s : State) (k : FailureKind) : (s.raise k).SP = s.SP := rfl
@[simp] theorem State.raise_Stack (s : State) (k : FailureKind) : (s.raise k).Stack = s.Stack := rfl
@[simp] theorem State.raise_DT (s : State) (k : FailureKind) : (s.raise k).DT = s.DT := rfl
@[simp] theorem State.raise_ST (s : State) (k : FailureKind) : (s.raise k).ST = s.ST := rfl
@[simp] theorem State.raise_Mem (s : State) (k : FailureKind) : (s.raise k).Mem = s.Mem := rfl
@[simp] theorem State.raise_FB (s : State) (k : FailureKind) : (s.raise k).FB = s.FB := rfl
@[simp] theorem State.raise_run (s : State) (k : FailureKind) : (s.raise k).run = .faulted k := rfl
@[simp] theorem State.raise_keys (s : State) (k : FailureKind) : (s.raise k).keys = s.keys := rfl
@[simp] theorem State.raise_jump (s : State) (k : FailureKind) : (s.raise k).jump = s.jump := rfl
@[simp] theorem State.raise_redraw (s : State) (k : FailureKind) : (s.raise k).redraw = s.redraw := rfl
@[simp] theorem State.raise_frames (s : State) (k : FailureKind) : (s.raise k).frames = s.frames := rfl
@[simp] theorem State.raise_inputs (s : State) (k : FailureKind) : (s.raise k).inputs = s.inputs := rfl
@[simp] theorem State.raise_used (s : State) (k : FailureKind) : (s.raise k).used = s.used := rfl
@[simp] theorem State.raise_font (s : State) (k : FailureKind) : (s.raise k).font = s.font := rfl

/-! ### setRun -/

@[simp] theorem State.setRun_V (s : State) (r : RunState) : (s.setRun r).V = s.V := rfl
@[simp] theorem State.setRun_I (s : State) (r : RunState) : (s.setRun r).I = s.I := rfl
@[simp] theorem State.setRun_pc (s : State) (r : RunState) : (s.setRun r).pc = s.pc := rfl
@[simp] theorem State.setRun_SP (s : State) (r : RunState) : (s.setRun r).SP = s.SP := rfl
@[simp] theorem State.setRun_Stack (s : State) (r : RunState) : (s.setRun r).Stack = s.Stack := rfl
@[simp] theorem State.setRun_DT (s : State) (r : RunState) : (s.setRun r).DT = s.DT := rfl
@[simp] theorem State.setRun_ST (s : State) (r : RunState) : (s.setRun r).ST = s.ST := rfl
@[simp] theorem State.setRun_Mem (s : State) (r : RunState) : (s.setRun r).Mem = s.Mem := rfl
@[simp] theorem State.setRun_FB (s : State) (r : RunState) : (s.setRun r).FB = s.FB := rfl
@[simp] theorem State.setRun_run (s : State) (r : RunState) : (s.setRun r).run = r := rfl
@[simp] theorem State.setRun_keys (s : State) (r : RunState) : (s.setRun r).keys = s.keys := rfl
@[simp] theorem State.setRun_jump (s : State) (r : RunState) : (s.setRun r).jump = s.jump := rfl
@[simp] theorem State.setRun_redraw (s : State) (r : RunState) : (s.setRun r).redraw = s.redraw := rfl
@[simp] theorem State.setRun_frames (s : State) (r : RunState) : (s.setRun r).frames = s.frames := rfl
@[simp] theorem State.setRun_inputs (s : State) (r : RunState) : (s.setRun r).inputs = s.inputs := rfl
@[simp] theorem State.setRun_used (s : State) (r : RunState) : (s.setRun r).used = s.used := rfl
@[simp] theorem State.setRun_font (s : State) (r : RunState) : (s.setRun r).font = s.font := rfl

/-! ### show -/

@[simp] theorem State.show_V (s : State) (fb : Screen) : (s.show fb).V = s.V := rfl
@[simp] theorem State.show_I (s : State) (fb : Screen) : (s.show fb).I = s.I := rfl
@[simp] theorem State.show_pc (s : State) (fb : Screen) : (s.show fb).pc = s.pc := rfl
@[simp] theorem State.show_SP (s : State) (fb : Screen) : (s.show fb).SP = s.SP := rfl
@[simp] theorem State.show_Stack (s : State) (fb : Screen) : (s.show fb).Stack = s.Stack := rfl
@[simp] theorem State.show_DT (s : State) (fb : Screen) : (s.show fb).DT = s.DT := rfl
@[simp] theorem State.show_ST (s : State) (fb : Screen) : (s.show fb).ST = s.ST := rfl
@[simp] theorem State.show_Mem (s : State) (fb : Screen) : (s.show fb).Mem = s.Mem := rfl
@[simp] theorem State.show_FB (s : State) (fb : Screen) : (s.show fb).FB = fb := rfl
@[simp] theorem State.show_run (s : State) (fb : Screen) : (s.show fb).run = s.run := rfl
@[simp] theorem State.show_keys (s : State) (fb : Screen) : (s.show fb).keys = s.keys := rfl
@[simp] theorem State.show_jump (s : State) (fb : Screen) : (s.show fb).jump = s.jump := rfl
@[simp] theorem State.show_redraw (s : State) (fb : Screen) : (s.show fb).redraw = true := rfl
@[simp] theorem State.show_frames (s : State) (fb : Screen) : (s.show fb).frames = s.frames := rfl
@[simp] theorem State.show_inputs (s : State) (fb : Screen) : (s.show fb).inputs = s.inputs := rfl
@[simp] theorem State.show_used (s : State) (fb : Screen) : (s.show fb).used = s.used := rfl
@[simp] theorem State.show_font (s : State) (fb : Screen) : (s.show fb).font = s.font := rfl

/-! ### useInput -/

@[simp] theorem State.useInput_V (s : State) : s.useInput.V = s.V := rfl
@[simp] theorem State.useInput_I (s : State) : s.useInput.I = s.I := rfl
@[simp] theorem State.useInput_pc (s : State) : s.useInput.pc = s.pc := rfl
@[simp] theorem State.useInput_SP (s : State) : s.useInput.SP = s.SP := rfl
@[simp] theorem State.useInput_Stack (s : State) : s.useInput.Stack = s.Stack := rfl
@[simp] theorem State.useInput_DT (s : State) : s.useInput.DT = s.DT := rfl
@[simp] theorem State.useInput_ST (s : State) : s.useInput.ST = s.ST := rfl
@[simp] theorem State.useInput_Mem (s : State) : s.useInput.Mem = s.Mem := rfl
@[simp] theorem State.useInput_FB (s : State) : s.useInput.FB = s.FB := rfl
@[simp] theorem State.useInput_run (s : State) : s.useInput.run = s.run := rfl
@[simp] theorem State.useInput_keys (s : State) : s.useInput.keys = s.keys := rfl
@[simp] theorem State.useInput_jump (s : State) : s.useInput.jump = s.jump := rfl
@[simp] theorem State.useInput_redraw (s : State) : s.useInput.redraw = s.redraw := rfl
@[simp] theorem State.useInput_frames (s : State) : s.useInput.frames = s.frames := rfl
@[simp] theorem State.useInput_inputs (s : State) : s.useInput.inputs = s.inputs.tail := rfl
@[simp] theorem State.useInput_used (s : State) : s.useInput.used = s.used + 1 := rfl
@[simp] theorem State.useInput_font (s : State) : s.useInput.font = s.font := rfl

/-! ### beginCycle -/

@[simp] theorem State.beginCycle_V (s : State) : s.beginCycle.V = s.V := rfl
@[simp] theorem State.beginCycle_I (s : State) : s.beginCycle.I = s.I := rfl
@[simp] theorem State.beginCycle_pc (s : State) : s.beginCycle.pc = s.pc := rfl
@[simp] theorem State.beginCycle_SP (s : State) : s.beginCycle.SP = s.SP := rfl
@[simp] theorem State.beginCycle_Stack (s : State) : s.beginCycle.Stack = s.Stack := rfl
@[simp] theorem State.beginCycle_DT (s : State) : s.beginCycle.DT = s.DT := rfl
@[simp] theorem State.beginCycle_ST (s : State) : s.beginCycle.ST = s.ST := rfl
@[simp] theorem State.beginCycle_Mem (s : State) : s.beginCycle.Mem = s.Mem := rfl
@[simp] theorem State.beginCycle_FB (s : State) : s.beginCycle.FB = s.FB := rfl
@[simp] theorem State.beginCycle_run (s : State) : s.beginCycle.run = .running := rfl
@[simp] theorem State.beginCycle_keys (s : State) : s.beginCycle.keys = s.keys := rfl
@[simp] theorem State.beginCycle_jump (s : State) : s.beginCycle.jump = false := rfl
@[simp] theorem State.beginCycle_redraw (s : State) : s.beginCycle.redraw = false := rfl
@[simp] theorem State.beginCycle_frames (s : State) : s.beginCycle.frames = s.frames := rfl
@[simp] theorem State.beginCycle_inputs (s : State) : s.beginCycle.inputs = s.inputs := rfl
@[simp] theorem State.beginCycle_used (s : State) : s.beginCycle.used = s.used := rfl
@[simp] theorem State.beginCycle_font (s : State) : s.beginCycle.font = s.font := rfl

/-! ### refreshKeys -/

@[simp] theorem State.refreshKeys_V (s : State) : s.refreshKeys.V = s.V := rfl
@[simp] theorem State.refreshKeys_I (s : State) : s.refreshKeys.I = s.I := rfl
@[simp] theorem State.refreshKeys_pc (s : State) : s.refreshKeys.pc = s.pc := rfl
@[simp] theorem State.refreshKeys_SP (s : State) : s.refreshKeys.SP = s.SP := rfl
@[simp] theorem State.refreshKeys_Stack (s : State) : s.refreshKeys.Stack = s.Stack := rfl
@[simp] theorem State.refreshKeys_DT (s : State) : s.refreshKeys.DT = s.DT := rfl
@[simp] theorem State.refreshKeys_ST (s : State) : s.refreshKeys.ST = s.ST := rfl
@[simp] theorem State.refreshKeys_Mem (s : State) : s.refreshKeys.Mem = s.Mem := rfl
@[simp] theorem State.refreshKeys_FB (s : State) : s.refreshKeys.FB = s.FB := rfl
@[simp] theorem State.refreshKeys_run (s : State) : s.refreshKeys.run = s.run := rfl
@[simp] theorem State.refreshKeys_keys (s : State) : s.refreshKeys.keys = s.input.keysNew := rfl
@[simp] theorem State.refreshKeys_jump (s : State) : s.refreshKeys.jump = s.jump := rfl
@[simp] theorem State.refreshKeys_redraw (s : State) : s.refreshKeys.redraw = s.redraw := rfl
@[simp] theorem State.refreshKeys_frames (s : State) : s.refreshKeys.frames = s.frames := rfl
@[simp] theorem State.refreshKeys_inputs (s : State) : s.refreshKeys.inputs = s.inputs := rfl
@[simp] theorem State.refreshKeys_used (s : State) : s.refreshKeys.used = s.used := rfl
@[simp] theorem State.refreshKeys_font (s : State) : s.refreshKeys.font = s.font := rfl

/-! ### close -/

@[simp] theorem State.close_V (s : State) : s.close.V = s.V := rfl
@[simp] theorem State.close_I (s : State) : s.close.I = s.I := rfl
@[simp] theorem State.close_pc (s : State) : s.close.pc = s.pc := rfl
@[simp] theorem State.close_SP (s : State) : s.close.SP = s.SP := rfl
@[simp] theorem State.close_Stack (s : State) : s.close.Stack = s.Stack := rfl
@[simp] theorem State.close_DT (s : State) : s.close.DT = s.DT := rfl
@[simp] theorem State.close_ST (s : State) : s.close.ST = s.ST := rfl
@[simp] theorem State.close_Mem (s : State) : s.close.Mem = s.Mem := rfl
@[simp] theorem State.close_FB (s : State) : s.close.FB = s.FB := rfl
@[simp] theorem State.close_run (s : State) : s.close.run = if s.input.quit then .halted else .running := rfl
@[simp] theorem State.close_keys (s : State) : s.close.keys = s.keys := rfl
@[simp] theorem State.close_jump (s : State) : s.close.jump = false := rfl
@[simp] theorem State.close_redraw (s : State) : s.close.redraw = false := rfl
@[simp] theorem State.close_frames (s : State) : s.close.frames = s.frames := rfl
@[simp] theorem State.close_inputs (s : State) : s.close.inputs = s.inputs := rfl
@[simp] theorem State.close_used (s : State) : s.close.used = s.used := rfl
@[simp] theorem State.close_font (s : State) : s.close.font = s.font := rfl

/-! ### writeFlagged -/

@[simp] theorem State.writeFlagged_V (s : State) (x : Reg) (b : Byte) (f : Bool) : (s.writeFlagged x b f).V = (s.V.set x.val b).set 15 (flagByte f) := rfl
@[simp] theorem State.writeFlagged_I (s : State) (x : Reg) (b : Byte) (f : Bool) : (s.writeFlagged x b f).I = s.I := rfl
@[simp] theorem State.writeFlagged_pc (s : State) (x : Reg) (b : Byte) (f : Bool) : (s.writeFlagged x b f).pc = s.pc := rfl
@[simp] theorem State.writeFlagged_SP (s : State) (x : Reg) (b : Byte) (f : Bool) : (s.writeFlagged x b f).SP = s.SP := rfl
@[simp] theorem State.writeFlagged_Stack (s : State) (x : Reg) (b : Byte) (f : Bool) : (s.writeFlagged x b f).Stack = s.Stack := rfl
@[simp] theorem State.writeFlagged_DT (s : State) (x : Reg) (b : Byte) (f : Bool) : (s.writeFlagged x b f).DT = s.DT := rfl
@[simp] theorem State.writeFlagged_ST (s : State) (x : Reg) (b : Byte) (f : Bool) : (s.writeFlagged x b f).ST = s.ST := rfl
@[simp] theorem State.writeFlagged_Mem (s : State) (x : Reg) (b : Byte) (f : Bool) : (s.writeFlagged x b f).Mem = s.Mem := rfl
@[simp] theorem State.writeFlagged_FB (s : State) (x : Reg) (b : Byte) (f : Bool) : (s.writeFlagged x b f).FB = s.FB := rfl
@[simp] theorem State.writeFlagged_run (s : State) (x : Reg) (b : Byte) (f : Bool) : (s.writeFlagged x b f).run = s.run := rfl
@[simp] theorem State.writeFlagged_keys (s : State) (x : Reg) (b : Byte) (f : Bool) : (s.writeFlagged x b f).keys = s.keys := rfl
@[simp] theorem State.writeFlagged_jump (s : State) (x : Reg) (b : Byte) (f : Bool) : (s.writeFlagged x b f).jump = s.jump := rfl
@[simp] theorem State.writeFlagged_redraw (s : State) (x : Reg) (b : Byte) (f : Bool) : (s.writeFlagged x b f).redraw = s.redraw := rfl
@[simp] theorem State.writeFlagged_frames (s : State) (x : Reg) (b : Byte) (f : Bool) : (s.writeFlagged x b f).frames = s.frames := rfl
@[simp] theorem State.writeFlagged_inputs (s : State) (x : Reg) (b : Byte) (f : Bool) : (s.writeFlagged x b f).inputs = s.inputs := rfl
@[simp] theorem State.writeFlagged_used (s : State) (x : Reg) (b : Byte) (f : Bool) : (s.writeFlagged x b f).used = s.used := rfl
@[simp] theorem State.writeFlagged_font (s : State) (x : Reg) (b : Byte) (f : Bool) : (s.writeFlagged x b f).font = s.font := rfl

/-! ### writeCollision -/

@[simp] theorem State.writeCollision_V (s : State) (f : Bool) : (s.writeCollision f).V = s.V.set 15 (flagByte f) := rfl
@[simp] theorem State.writeCollision_I (s : State) (f : Bool) : (s.writeCollision f).I = s.I := rfl
@[simp] theorem State.writeCollision_pc (s : State) (f : Bool) : (s.writeCollision f).pc = s.pc := rfl
@[simp] theorem State.writeCollision_SP (s : State) (f : Bool) : (s.writeCollision f).SP = s.SP := rfl
@[simp] theorem State.writeCollision_Stack (s : State) (f : Bool) : (s.writeCollision f).Stack = s.Stack := rfl
@[simp] theorem State.writeCollision_DT (s : State) (f : Bool) : (s.writeCollision f).DT = s.DT := rfl
@[simp] theorem State.writeCollision_ST (s : State) (f : Bool) : (s.writeCollision f).ST = s.ST := rfl
@[simp] theorem State.writeCollision_Mem (s : State) (f : Bool) : (s.writeCollision f).Mem = s.Mem := rfl
@[simp] theorem State.writeCollision_FB (s : State) (f : Bool) : (s.writeCollision f).FB = s.FB := rfl
@[simp] theorem State.writeCollision_run (s : State) (f : Bool) : (s.writeCollision f).run = s.run := rfl
@[simp] theorem State.writeCollision_keys (s : State) (f : Bool) : (s.writeCollision f).keys = s.keys := rfl
@[simp] theorem State.writeCollision_jump (s : State) (f : Bool) : (s.writeCollision f).jump = s.jump := rfl
@[simp] theorem State.writeCollision_redraw (s : State) (f : Bool) : (s.writeCollision f).redraw = s.redraw := rfl
@[simp] theorem State.writeCollision_frames (s : State) (f : Bool) : (s.writeCollision f).frames = s.frames := rfl
@[simp] theorem State.writeCollision_inputs (s : State) (f : Bool) : (s.writeCollision f).inputs = s.inputs := rfl
@[simp] theorem State.writeCollision_used (s : State) (f : Bool) : (s.writeCollision f).used = s.used := rfl
@[simp] theorem State.writeCollision_font (s : State) (f : Bool) : (s.writeCollision f).font = s.font := rfl

/-! ### skipIf -/

@[simp] theorem State.skipIf_V (s : State) (c : Bool) : (s.skipIf c).V = s.V := by
  unfold State.skipIf; split <;> rfl
@[simp] theorem State.skipIf_I (s : State) (c : Bool) : (s.skipIf c).I = s.I := by
  unfold State.skipIf; split <;> rfl
@[simp] theorem State.skipIf_pc (s : State) (c : Bool) : (s.skipIf c).pc = if c then s.pc + 2 else s.pc := by
  unfold State.skipIf; split <;> rfl
@[simp] theorem State.skipIf_SP (s : State) (c : Bool) : (s.skipIf c).SP = s.SP := by
  unfold State.skipIf; split <;> rfl
@[simp] theorem State.skipIf_Stack (s : State) (c : Bool) : (s.skipIf c).Stack = s.Stack := by
  unfold State.skipIf; split <;> rfl
@[simp] theorem State.skipIf_DT (s : State) (c : Bool) : (s.skipIf c).DT = s.DT := by
  unfold State.skipIf; split <;> rfl
@[simp] theorem State.skipIf_ST (s : State) (c : Bool) : (s.skipIf c).ST = s.ST := by
  unfold State.skipIf; split <;> rfl
@[simp] theorem State.skipIf_Mem (s : State) (c : Bool) : (s.skipIf c).Mem = s.Mem := by
  unfold State.skipIf; split <;> rfl
@[simp] theorem State.skipIf_FB (s : State) (c : Bool) : (s.skipIf c).FB = s.FB := by
  unfold State.skipIf; split <;> rfl
@[simp] theorem State.skipIf_run (s : State) (c : Bool) : (s.skipIf c).run = s.run := by
  unfold State.skipIf; split <;> rfl
@[simp] theorem State.skipIf_keys (s : State) (c : Bool) : (s.skipIf c).keys = s.keys := by
  unfold State.skipIf; split <;> rfl
@[simp] theorem State.skipIf_jump (s : State) (c : Bool) : (s.skipIf c).jump = s.jump := by
  unfold State.skipIf; split <;> rfl
@[simp] theorem State.skipIf_redraw (s : State) (c : Bool) : (s.skipIf c).redraw = s.redraw := by
  unfold State.skipIf; split <;> rfl
@[simp] theorem State.skipIf_frames (s : State) (c : Bool) : (s.skipIf c).frames = s.frames := by
  unfold State.skipIf; split <;> rfl
@[simp] theorem State.skipIf_inputs (s : State) (c : Bool) : (s.skipIf c).inputs = s.inputs := by
  unfold State.skipIf; split <;> rfl
@[simp] theorem State.skipIf_used (s : State) (c : Bool) : (s.skipIf c).used = s.used := by
  unfold State.skipIf; split <;> rfl
@[simp] theorem State.skipIf_font (s : State) (c : Bool) : (s.skipIf c).font = s.font := by
  unfold State.skipIf; split <;> rfl

/-! ### render -/

@[simp] theorem State.render_V (s : State) : s.render.V = s.V := by
  unfold State.render; split <;> rfl
@[simp] theorem State.render_I (s : State) : s.render.I = s.I := by
  unfold State.render; split <;> rfl
@[simp] theorem State.render_pc (s : State) : s.render.pc = s.pc := by
  unfold State.render; split <;> rfl
@[simp] theorem State.render_SP (s : State) : s.render.SP = s.SP := by
  unfold State.render; split <;> rfl
@[simp] theorem State.render_Stack (s : State) : s.render.Stack = s.Stack := by
  unfold State.render; split <;> rfl
@[simp] theorem State.render_DT (s : State) : s.render.DT = s.DT := by
  unfold State.render; split <;> rfl
@[simp] theorem State.render_ST (s : State) : s.render.ST = s.ST := by
  unfold State.render; split <;> rfl
@[simp] theorem State.render_Mem (s : State) : s.render.Mem = s.Mem := by
  unfold State.render; split <;> rfl
@[simp] theorem State.render_FB (s : State) : s.render.FB = s.FB := by
  unfold State.render; split <;> rfl
@[simp] theorem State.render_run (s : State) : s.render.run = s.run := by
  unfold State.render; split <;> rfl
@[simp] theorem State.render_keys (s : State) : s.render.keys = s.keys := by
  unfold State.render; split <;> rfl
@[simp] theorem State.render_jump (s : State) : s.render.jump = s.jump := by
  unfold State.render; split <;> rfl
@[simp] theorem State.render_redraw (s : State) : s.render.redraw = s.redraw := by
  unfold State.render; split <;> rfl
@[simp] theorem State.render_frames (s : State) : s.render.frames = if s.redraw then s.FB :: s.frames else s.frames := by
  unfold State.render; split <;> rfl
@[simp] theorem State.render_inputs (s : State) : s.render.inputs = s.inputs := by
  unfold State.render; split <;> rfl
@[simp] theorem State.render_used (s : State) : s.render.used = s.used := by
  unfold State.render; split <;> rfl
@[simp] theorem State.render_font (s : State) : s.render.font = s.font := by
  unfold State.render; split <;> rfl

/-! ### advance -/

@[simp] theorem State.advance_V (s : State) : s.advance.V = s.V := by
  unfold State.advance; split <;> rfl
@[simp] theorem State.advance_I (s : State) : s.advance.I = s.I := by
  unfold State.advance; split <;> rfl
@[simp] theorem State.advance_pc (s : State) : s.advance.pc = if s.jump then s.pc else s.pc + 2 := by
  unfold State.advance; split <;> rfl
@[simp] theorem State.advance_SP (s : State) : s.advance.SP = s.SP := by
  unfold State.advance; split <;> rfl
@[simp] theorem State.advance_Stack (s : State) : s.advance.Stack = s.Stack := by
  unfold State.advance; split <;> rfl
@[simp] theorem State.advance_DT (s : State) : s.advance.DT = s.DT := by
  unfold State.advance; split <;> rfl
@[simp] theorem State.advance_ST (s : State) : s.advance.ST = s.ST := by
  unfold State.advance; split <;> rfl
@[simp] theorem State.advance_Mem (s : State) : s.advance.Mem = s.Mem := by
  unfold State.advance; split <;> rfl
@[simp] theorem State.advance_FB (s : State) : s.advance.FB = s.FB := by
  unfold State.advance; split <;> rfl
@[simp] theorem State.advance_run (s : State) : s.advance.run = s.run := by
  unfold State.advance; split <;> rfl
@[simp] theorem State.advance_keys (s : State) : s.advance.keys = s.keys := by
  unfold State.advance; split <;> rfl
@[simp] theorem State.advance_jump (s : State) : s.advance.jump = s.jump := by
  unfold State.advance; split <;> rfl
@[simp] theorem State.advance_redraw (s : State) : s.advance.redraw = s.redraw := by
  unfold State.advance; split <;> rfl
@[simp] theorem State.advance_frames (s : State) : s.advance.frames = s.frames := by
  unfold State.advance; split <;> rfl
@[simp] theorem State.advance_inputs (s : State) : s.advance.inputs = s.inputs := by
  unfold State.advance; split <;> rfl
@[simp] theorem State.advance_used (s : State) : s.advance.used = s.used := by
  unfold State.advance; split <;> rfl
@[simp] theorem State.advance_font (s : State) : s.advance.font = s.font := by
  unfold State.advance; split <;> rfl

/-! ### tickTimers -/

@[simp] theorem State.tickTimers_V (s : State) : s.tickTimers.V = s.V := by
  unfold State.tickTimers; split <;> rfl
@[simp] theorem State.tickTimers_I (s : State) : s.tickTimers.I = s.I := by
  unfold State.tickTimers; split <;> rfl
@[simp] theorem State.tickTimers_pc (s : State) : s.tickTimers.pc = s.pc := by
  unfold State.tickTimers; split <;> rfl
@[simp] theorem State.tickTimers_SP (s : State) : s.tickTimers.SP = s.SP := by
  unfold State.tickTimers; split <;> rfl
@[simp] theorem State.tickTimers_Stack (s : State) : s.tickTimers.Stack = s.Stack := by
  unfold State.tickTimers; split <;> rfl
@[simp] theorem State.tickTimers_DT (s : State) : s.tickTimers.DT = if s.input.tick then decay s.DT else s.DT := by
  unfold State.tickTimers; split <;> rfl
@[simp] theorem State.tickTimers_ST (s : State) : s.tickTimers.ST = if s.input.tick then decay s.ST else s.ST := by
  unfold State.tickTimers; split <;> rfl
@[simp] theorem State.tickTimers_Mem (s : State) : s.tickTimers.Mem = s.Mem := by
  unfold State.tickTimers; split <;> rfl
@[simp] theorem State.tickTimers_FB (s : State) : s.tickTimers.FB = s.FB := by
  unfold State.tickTimers; split <;> rfl
@[simp] theorem State.tickTimers_run (s : State) : s.tickTimers.run = s.run := by
  unfold State.tickTimers; split <;> rfl
@[simp] theorem State.tickTimers_keys (s : State) : s.tickTimers.keys = s.keys := by
  unfold State.tickTimers; split <;> rfl
@[simp] theorem State.tickTimers_jump (s : State) : s.tickTimers.jump = s.jump := by
  unfold State.tickTimers; split <;> rfl
@[simp] theorem State.tickTimers_redraw (s : State) : s.tickTimers.redraw = s.redraw := by
  unfold State.tickTimers; split <;> rfl
@[simp] theorem State.tickTimers_frames (s : State) : s.tickTimers.frames = s.frames := by
  unfold State.tickTimers; split <;> rfl
@[simp] theorem State.tickTimers_inputs (s : State) : s.tickTimers.inputs = s.inputs := by
  unfold State.tickTimers; split <;> rfl
@[simp] theorem State.tickTimers_used (s : State) : s.tickTimers.used = s.used := by
  unfold State.tickTimers; split <;> rfl
@[simp] theorem State.tickTimers_font (s : State) : s.tickTimers.font = s.font := by
  unfold State.tickTimers; split <;> rfl

/-! ### What is read through several fields -/

/-- The inputs of a cycle depend on the two fields that hold them alone. -/
theorem State.input_eq_of (s t : State) (hi : t.inputs = s.inputs) (hu : t.used = s.used) :
    t.input = s.input := by
  simp [State.input, hi, hu]

/-- A byte of memory depends on memory and the configuration alone. -/
theorem State.readByte_eq_of (s t : State) (hm : t.Mem = s.Mem) (hf : t.font = s.font) (a : Nat) :
    t.readByte a = s.readByte a := by
  simp [State.readByte, hm, hf]

@[simp] theorem State.readV_writeV (s : State) (x r : Reg) (b : Byte) :
    (s.writeV x b).readV r = if r = x then b else s.readV r := by
  simp only [State.readV, State.writeV_V, Vector.getElem_set, Fin.ext_iff, eq_comm]

@[simp] theorem State.readV_writeFlagged (s : State) (x r : Reg) (b : Byte) (f : Bool) :
    (s.writeFlagged x b f).readV r = if r = VF then flagByte f else if r = x then b else s.readV r := by
  simp only [State.writeFlagged, State.readV_writeV]

@[simp] theorem State.readV_writeCollision (s : State) (r : Reg) (f : Bool) :
    (s.writeCollision f).readV r = if r = VF then flagByte f else s.readV r := by
  simp only [State.writeCollision, State.readV_writeV]

/-- A register depends on the register file alone. -/
theorem State.readV_eq_of (s t : State) (hv : t.V = s.V) (r : Reg) : t.readV r = s.readV r := by
  simp [State.readV, hv]


/-- States with equal components are equal. -/
theorem State.ext_of {a b : State} (hV : a.V = b.V) (hI : a.I = b.I) (hpc : a.pc = b.pc) (hSP : a.SP = b.SP) (hStack : a.Stack = b.Stack) (hDT : a.DT = b.DT) (hST : a.ST = b.ST) (hMem : a.Mem = b.Mem) (hFB : a.FB = b.FB) (hrun : a.run = b.run) (hkeys : a.keys = b.keys) (hjump : a.jump = b.jump) (hredraw : a.redraw = b.redraw) (hframes : a.frames = b.frames) (hinputs : a.inputs = b.inputs) (hused : a.used = b.used) (hfont : a.font = b.font) : a = b := by
  cases a; cases b; simp only at *; subst_vars; rfl

/-! ### Registers, memory and inputs under each update -/

@[simp] theorem State.readByte_writeV (s : State) (r : Reg) (b : Byte) (q : Nat) : (s.writeV r b).readByte q = s.readByte q :=
  State.readByte_eq_of _ _ (by simp) (by simp) q
@[simp] theorem State.input_writeV (s : State) (r : Reg) (b : Byte) : (s.writeV r b).input = s.input :=
  State.input_eq_of _ _ (by simp) (by simp)
@[simp] theorem State.readV_writeI (s : State) (w : Word) (q : Reg) : (s.writeI w).readV q = s.readV q :=
  State.readV_eq_of _ _ (by simp) q
@[simp] theorem State.readByte_writeI (s : State) (w : Word) (q : Nat) : (s.writeI w).readByte q = s.readByte q :=
  State.readByte_eq_of _ _ (by simp) (by simp) q
@[simp] theorem State.input_writeI (s : State) (w : Word) : (s.writeI w).input = s.input :=
  State.input_eq_of _ _ (by simp) (by simp)
@[simp] theorem State.readV_writePc (s : State) (a : Word) (q : Reg) : (s.writePc a).readV q = s.readV q :=
  State.readV_eq_of _ _ (by simp) q
@[simp] theorem State.readByte_writePc (s : State) (a : Word) (q : Nat) : (s.writePc a).readByte q = s.readByte q :=
  State.readByte_eq_of _ _ (by simp) (by simp) q
@[simp] theorem State.input_writePc (s : State) (a : Word) : (s.writePc a).input = s.input :=
  State.input_eq_of _ _ (by simp) (by simp)
@[simp] theorem State.readV_jumpTo (s : State) (a : Word) (q : Reg) : (s.jumpTo a).readV q = s.readV q :=
  State.readV_eq_of _ _ (by simp) q
@[simp] theorem State.readByte_jumpTo (s : State) (a : Word) (q : Nat) : (s.jumpTo a).readByte q = s.readByte q :=
  State.readByte_eq_of _ _ (by simp) (by simp) q
@[simp] theorem State.input_jumpTo (s : State) (a : Word) : (s.jumpTo a).input = s.input :=
  State.input_eq_of _ _ (by simp) (by simp)
@[simp] theorem State.readV_writeDT (s : State) (b : Byte) (q : Reg) : (s.writeDT b).readV q = s.readV q :=
  State.readV_eq_of _ _ (by simp) q
@[simp] theorem State.readByte_writeDT (s : State) (b : Byte) (q : Nat) : (s.writeDT b).readByte q = s.readByte q :=
  State.readByte_eq_of _ _ (by simp) (by simp) q
@[simp] theorem State.input_writeDT (s : State) (b : Byte) : (s.writeDT b).input = s.input :=
  State.input_eq_of _ _ (by simp) (by simp)
@[simp] theorem State.readV_writeST (s : State) (b : Byte) (q : Reg) : (s.writeST b).readV q = s.readV q :=
  State.readV_eq_of _ _ (by simp) q
@[simp] theorem State.readByte_writeST (s : State) (b : Byte) (q : Nat) : (s.writeST b).readByte q = s.readByte q :=
  State.readByte_eq_of _ _ (by simp) (by simp) q
@[simp] theorem State.input_writeST (s : State) (b : Byte) : (s.writeST b).input = s.input :=
  State.input_eq_of _ _ (by simp) (by simp)
@[simp] theorem State.readByte_writeRegs (s : State) (bs : List Byte) (q : Nat) : (s.writeRegs bs).readByte q = s.readByte q :=
  State.readByte_eq_of _ _ (by simp) (by simp) q
@[simp] theorem State.input_writeRegs (s : State) (bs : List Byte) : (s.writeRegs bs).input = s.input :=
  State.input_eq_of _ _ (by simp) (by simp)
@[simp] theorem State.readV_writeMem (s : State) (m : Memory) (q : Reg) : (s.writeMem m).readV q = s.readV q :=
  State.readV_eq_of _ _ (by simp) q
@[simp] theorem State.input_writeMem (s : State) (m : Memory) : (s.writeMem m).input = s.input :=
  State.input_eq_of _ _ (by simp) (by simp)
@[simp] theorem State.readV_writeSP (s : State) (sp : Fin 17) (q : Reg) : (s.writeSP sp).readV q = s.readV q :=
  State.readV_eq_of _ _ (by simp) q
@[simp] theorem State.readByte_writeSP (s : State) (sp : Fin 17) (q : Nat) : (s.writeSP sp).readByte q = s.readByte q :=
  State.readByte_eq_of _ _ (by simp) (by simp) q
@[simp] theorem State.input_writeSP (s : State) (sp : Fin 17) : (s.writeSP sp).input = s.input :=
  State.input_eq_of _ _ (by simp) (by simp)
@[simp] theorem State.readV_writeSlot (s : State) (k : Fin 16) (a : Word) (q : Reg) : (s.writeSlot k a).readV q = s.readV q :=
  State.readV_eq_of _ _ (by simp) q
@[simp] theorem State.readByte_writeSlot (s : State) (k : Fin 16) (a : Word) (q : Nat) : (s.writeSlot k a).readByte q = s.readByte q :=
  State.readByte_eq_of _ _ (by simp) (by simp) q
@[simp] theorem State.input_writeSlot (s : State) (k : Fin 16) (a : Word) : (s.writeSlot k a).input = s.input :=
  State.input_eq_of _ _ (by simp) (by simp)
@[simp] theorem State.readV_raise (s : State) (k : FailureKind) (q : Reg) : (s.raise k).readV q = s.readV q :=
  State.readV_eq_of _ _ (by simp) q
@[simp] theorem State.readByte_raise (s : State) (k : FailureKind) (q : Nat) : (s.raise k).readByte q = s.readByte q :=
  State.readByte_eq_of _ _ (by simp) (by simp) q
@[simp] theorem State.input_raise (s : State) (k : FailureKind) : (s.raise k).input = s.input :=
  State.input_eq_of _ _ (by simp) (by simp)
@[simp] theorem State.readV_setRun (s : State) (r : RunState) (q : Reg) : (s.setRun r).readV q = s.readV q :=
  State.readV_eq_of _ _ (by simp) q
@[simp] theorem State.readByte_setRun (s : State) (r : RunState) (q : Nat) : (s.setRun r).readByte q = s.readByte q :=
  State.readByte_eq_of _ _ (by simp) (by simp) q
@[simp] theorem State.input_setRun (s : State) (r : RunState) : (s.setRun r).input = s.input :=
  State.input_eq_of _ _ (by simp) (by simp)
@[simp] theorem State.readV_show (s : State) (fb : Screen) (q : Reg) : (s.show fb).readV q = s.readV q :=
  State.readV_eq_of _ _ (by simp) q
@[simp] theorem State.readByte_show (s : State) (fb : Screen) (q : Nat) : (s.show fb).readByte q = s.readByte q :=
  State.readByte_eq_of _ _ (by simp) (by simp) q
@[simp] theorem State.input_show (s : State) (fb : Screen) : (s.show fb).input = s.input :=
  State.input_eq_of _ _ (by simp) (by simp)
@[simp] theorem State.readV_useInput (s : State) (q : Reg) : s.useInput.readV q = s.readV q :=
  State.readV_eq_of _ _ (by simp) q
@[simp] theorem State.readByte_useInput (s : State) (q : Nat) : s.useInput.readByte q = s.readByte q :=
  State.readByte_eq_of _ _ (by simp) (by simp) q
@[simp] theorem State.readV_beginCycle (s : State) (q : Reg) : s.beginCycle.readV q = s.readV q :=
  State.readV_eq_of _ _ (by simp) q
@[simp] theorem State.readByte_beginCycle (s : State) (q : Nat) : s.beginCycle.readByte q = s.readByte q :=
  State.readByte_eq_of _ _ (by simp) (by simp) q
@[simp] theorem State.input_beginCycle (s : State) : s.beginCycle.input = s.input :=
  State.input_eq_of _ _ (by simp) (by simp)
@[simp] theorem State.readV_refreshKeys (s : State) (q : Reg) : s.refreshKeys.readV q = s.readV q :=
  State.readV_eq_of _ _ (by simp) q
@[simp] theorem State.readByte_refreshKeys (s : State) (q : Nat) : s.refreshKeys.readByte q = s.readByte q :=
  State.readByte_eq_of _ _ (by simp) (by simp) q
@[simp] theorem State.input_refreshKeys (s : State) : s.refreshKeys.input = s.input :=
  State.input_eq_of _ _ (by simp) (by simp)
@[simp] theorem State.readV_close (s : State) (q : Reg) : s.close.readV q = s.readV q :=
  State.readV_eq_of _ _ (by simp) q
@[simp] theorem State.readByte_close (s : State) (q : Nat) : s.close.readByte q = s.readByte q :=
  State.readByte_eq_of _ _ (by simp) (by simp) q
@[simp] theorem State.input_close (s : State) : s.close.input = s.input :=
  State.input_eq_of _ _ (by simp) (by simp)
@[simp] theorem State.readByte_writeFlagged (s : State) (x : Reg) (b : Byte) (f : Bool) (q : Nat) : (s.writeFlagged x b f).readByte q = s.readByte q :=
  State.readByte_eq_of _ _ (by simp) (by simp) q
@[simp] theorem State.input_writeFlagged (s : State) (x : Reg) (b : Byte) (f : Bool) : (s.writeFlagged x b f).input = s.input :=
  State.input_eq_of _ _ (by simp) (by simp)
@[simp] theorem State.readByte_writeCollision (s : State) (f : Bool) (q : Nat) : (s.writeCollision f).readByte q = s.readByte q :=
  State.readByte_eq_of _ _ (by simp) (by simp) q
@[simp] theorem State.input_writeCollision (s : State) (f : Bool) : (s.writeCollision f).input = s.input :=
  State.input_eq_of _ _ (by simp) (by simp)
@[simp] theorem State.readV_skipIf (s : State) (c : Bool) (q : Reg) : (s.skipIf c).readV q = s.readV q :=
  State.readV_eq_of _ _ (by simp) q
@[simp] theorem State.readByte_skipIf (s : State) (c : Bool) (q : Nat) : (s.skipIf c).readByte q = s.readByte q :=
  State.readByte_eq_of _ _ (by simp) (by simp) q
@[simp] theorem State.input_skipIf (s : State) (c : Bool) : (s.skipIf c).input = s.input :=
  State.input_eq_of _ _ (by simp) (by simp)
@[simp] theorem State.readV_render (s : State) (q : Reg) : s.render.readV q = s.readV q :=
  State.readV_eq_of _ _ (by simp) q
@[simp] theorem State.readByte_render (s : State) (q : Nat) : s.render.readByte q = s.readByte q :=
  State.readByte_eq_of _ _ (by simp) (by simp) q
@[simp] theorem State.input_render (s : State) : s.render.input = s.input :=
  State.input_eq_of _ _ (by simp) (by simp)
@[simp] theorem State.readV_advance (s : State) (q : Reg) : s.advance.readV q = s.readV q :=
  State.readV_eq_of _ _ (by simp) q
@[simp] theorem State.readByte_advance (s : State) (q : Nat) : s.advance.readByte q = s.readByte q :=
  State.readByte_eq_of _ _ (by simp) (by simp) q
@[simp] theorem State.input_advance (s : State) : s.advance.input = s.input :=
  State.input_eq_of _ _ (by simp) (by simp)
@[simp] theorem State.readV_tickTimers (s : State) (q : Reg) : s.tickTimers.readV q = s.readV q :=
  State.readV_eq_of _ _ (by simp) q
@[simp] theorem State.readByte_tickTimers (s : State) (q : Nat) : s.tickTimers.readByte q = s.readByte q :=
  State.readByte_eq_of _ _ (by simp) (by simp) q
@[simp] theorem State.input_tickTimers (s : State) : s.tickTimers.input = s.input :=
  State.input_eq_of _ _ (by simp) (by simp)

/-! ### The completed cycle -/

@[simp] theorem State.complete_V (s : State) : s.complete.V = s.V := by
  simp [State.complete]
@[simp] theorem State.complete_I (s : State) : s.complete.I = s.I := by
  simp [State.complete]
@[simp] theorem State.complete_pc (s : State) : s.complete.pc = if s.jump then s.pc else s.pc + 2 := by
  simp [State.complete]
@[simp] theorem State.complete_SP (s : State) : s.complete.SP = s.SP := by
  simp [State.complete]
@[simp] theorem State.complete_Stack (s : State) : s.complete.Stack = s.Stack := by
  simp [State.complete]
@[simp] theorem State.complete_DT (s : State) : s.complete.DT = if s.input.tick then decay s.DT else s.DT := by
  simp [State.complete]
@[simp] theorem State.complete_ST (s : State) : s.complete.ST = if s.input.tick then decay s.ST else s.ST := by
  simp [State.complete]
@[simp] theorem State.complete_Mem (s : State) : s.complete.Mem = s.Mem := by
  simp [State.complete]
@[simp] theorem State.complete_FB (s : State) : s.complete.FB = s.FB := by
  simp [State.complete]
@[simp] theorem State.complete_run (s : State) : s.complete.run = if s.input.quit then .halted else .running := by
  simp [State.complete]
@[simp] theorem State.complete_keys (s : State) : s.complete.keys = s.input.keysNew := by
  simp [State.complete]
@[simp] theorem State.complete_jump (s : State) : s.complete.jump = false := by
  simp [State.complete]
@[simp] theorem State.complete_redraw (s : State) : s.complete.redraw = false := by
  simp [State.complete]
@[simp] theorem State.complete_frames (s : State) : s.complete.frames = if s.redraw then s.FB :: s.frames else s.frames := by
  simp [State.complete]
@[simp] theorem State.complete_inputs (s : State) : s.complete.inputs = s.inputs.tail := by
  simp [State.complete]
@[simp] theorem State.complete_used (s : State) : s.complete.used = s.used + 1 := by
  simp [State.complete]
@[simp] theorem State.complete_font (s : State) : s.complete.font = s.font := by
  simp [State.complete]
@[simp] theorem State.readV_complete (s : State) (q : Reg) : s.complete.readV q = s.readV q :=
  State.readV_eq_of _ _ (by simp) q
@[simp] theorem State.readByte_complete (s : State) (q : Nat) : s.complete.readByte q = s.readByte q :=
  State.readByte_eq_of _ _ (by simp) (by simp) q

end Sys2Proof.Machine
end

