-- ==== Sys2Proof/Laws/Memory.lean ====
section
/-! SUPPORT. Memory: the canonical form is kept by every operation, a read after a write gives what was
written, and a write leaves every other address alone. -/

namespace Sys2Proof.Machine

variable {font : Config.Font}

/-! ## The canonical form -/

theorem Memory.wfFrom_cons {low a : Nat} {v : Byte} {rest : Memory} :
    Memory.wfFrom font low ((a, v) :: rest) = true ↔
      low ≤ a ∧ a < Config.memSize ∧ v ≠ unlistedByte font a ∧ Memory.wfFrom font (a + 1) rest = true := by
  simp [Memory.wfFrom, and_assoc]

theorem Memory.wf_nil : Memory.wf font [] = true := rfl

/-- A canonical form from one address on is one from any lower address on. -/
theorem Memory.wfFrom_mono {low low' : Nat} {m : Memory} (hl : low' ≤ low)
    (h : Memory.wfFrom font low m = true) : Memory.wfFrom font low' m = true := by
  cases m with
  | nil => rfl
  | cons e rest =>
    obtain ⟨h1, h2⟩ := Memory.wfFrom_cons.mp h
    exact Memory.wfFrom_cons.mpr ⟨by omega, h2⟩

theorem Memory.wfFrom_set {low a : Nat} {m : Memory} (v : Byte) (hl : low ≤ a) (ha : a < Config.memSize)
    (h : Memory.wfFrom font low m = true) : Memory.wfFrom font low (Memory.set font m a v) = true := by
  induction m generalizing low with
  | nil =>
    by_cases hv : v = unlistedByte font a
    · simp [Memory.set, hv, Memory.wfFrom]
    · simp [Memory.set, hv, Memory.wfFrom, hl, ha]
  | cons e rest ih =>
    obtain ⟨b, u⟩ := e
    obtain ⟨h1, h2, h3, h4⟩ := Memory.wfFrom_cons.mp h
    unfold Memory.set
    split
    · split
      · exact h
      · rename_i hab hv
        exact Memory.wfFrom_cons.mpr ⟨hl, ha, hv, Memory.wfFrom_cons.mpr ⟨by omega, h2, h3, h4⟩⟩
    · split
      · split
        · exact Memory.wfFrom_mono (by omega) h4
        · rename_i hab he hv
          exact Memory.wfFrom_cons.mpr ⟨hl, ha, hv, by rw [he]; exact h4⟩
      · exact Memory.wfFrom_cons.mpr ⟨h1, h2, h3, ih (by omega) h4⟩

/-- A write keeps the canonical form. -/
theorem Memory.wf_set {m : Memory} {a : Nat} (v : Byte) (ha : a < Config.memSize)
    (h : Memory.wf font m = true) : Memory.wf font (Memory.set font m a v) = true :=
  Memory.wfFrom_set v (Nat.zero_le a) ha h

/-- A write of several bytes keeps the canonical form. -/
theorem Memory.wf_setRange {m : Memory} {a : Nat} (bytes : List Byte)
    (ha : a + bytes.length ≤ Config.memSize) (h : Memory.wf font m = true) :
    Memory.wf font (Memory.setRange font m a bytes) = true := by
  induction bytes generalizing a m with
  | nil => exact h
  | cons v vs ih =>
    simp only [List.length_cons] at ha
    exact ih (by omega) (Memory.wf_set v (by omega) h)

/-! ## Reading what was written -/

theorem Memory.find_of_lt {low a : Nat} {m : Memory} (h : Memory.wfFrom font low m = true)
    (ha : a < low) : m.find a = none := by
  induction m generalizing low with
  | nil => rfl
  | cons e rest ih =>
    obtain ⟨b, u⟩ := e
    obtain ⟨h1, _, _, h4⟩ := Memory.wfFrom_cons.mp h
    have hne : a ≠ b := by omega
    simp only [Memory.find, hne, if_false]
    exact ih h4 (by omega)

theorem Memory.get_cons {a b : Nat} {u : Byte} {rest : Memory} :
    Memory.get font ((b, u) :: rest) a = if a = b then u else Memory.get font rest a := by
  by_cases h : a = b <;> simp [Memory.get, Memory.find, h]

theorem Memory.get_of_lt {low a : Nat} {m : Memory} (h : Memory.wfFrom font low m = true)
    (ha : a < low) : Memory.get font m a = unlistedByte font a := by
  simp [Memory.get, Memory.find_of_lt h ha]

theorem Memory.get_set_from {low a : Nat} {m : Memory} (v : Byte)
    (h : Memory.wfFrom font low m = true) (c : Nat) :
    Memory.get font (Memory.set font m a v) c = if c = a then v else Memory.get font m c := by
  induction m generalizing low with
  | nil =>
    by_cases hv : v = unlistedByte font a
    · by_cases hc : c = a
      · subst hc; simp [Memory.set, hv, Memory.get, Memory.find]
      · simp [Memory.set, hv, Memory.get, Memory.find, hc]
    · simp only [Memory.set, hv, if_false, Memory.get_cons]
  | cons e rest ih =>
    obtain ⟨b, u⟩ := e
    have h' := Memory.wfFrom_cons.mp h
    obtain ⟨h1, h2, h3, h4⟩ := h'
    unfold Memory.set
    split
    · rename_i hab
      split
      · rename_i hv
        by_cases hc : c = a
        · subst hc
          have hne : ¬ c = b := by omega
          simp only [Memory.get_cons, hne, if_false, if_true, hv]
          exact Memory.get_of_lt h4 (by omega)
        · simp [hc]
      · exact Memory.get_cons
    · split
      · rename_i hab he
        subst he
        split
        · rename_i hv
          by_cases hc : c = a
          · subst hc
            simp only [if_true, hv]
            exact Memory.get_of_lt h4 (by omega)
          · simp [hc, Memory.get_cons]
        · simp only [Memory.get_cons]
          by_cases hc : c = a <;> simp [hc]
      · rename_i hab he
        simp only [Memory.get_cons, ih h4]
        by_cases hc : c = a
        · subst hc; simp [he]
        · simp [hc]

/-- A read after a write gives the value written, and a write leaves every other address alone (R50). -/
theorem Memory.get_set {m : Memory} (h : Memory.wf font m = true) (a c : Nat) (v : Byte) :
    Memory.get font (Memory.set font m a v) c = if c = a then v else Memory.get font m c :=
  Memory.get_set_from v h c

/-- After a write of several bytes, byte k stands at address a + k, and every other address is as before. -/
theorem Memory.get_setRange {m : Memory} (h : Memory.wf font m = true) (a c : Nat) (bytes : List Byte)
    (ha : a + bytes.length ≤ Config.memSize) :
    Memory.get font (Memory.setRange font m a bytes) c =
      if hc : a ≤ c ∧ c < a + bytes.length then bytes[c - a]'(by omega) else Memory.get font m c := by
  induction bytes generalizing a m with
  | nil =>
    have : ¬ (a ≤ c ∧ c < a + ([] : List Byte).length) := by simp
    rw [dif_neg this]; rfl
  | cons v vs ih =>
    simp only [List.length_cons] at ha
    have hset := Memory.wf_set (font := font) v (a := a) (by omega) h
    rw [Memory.setRange, ih hset (a + 1) (by omega), Memory.get_set h]
    by_cases hc : a + 1 ≤ c ∧ c < a + 1 + vs.length
    · have hc' : a ≤ c ∧ c < a + (v :: vs).length := by simp only [List.length_cons]; omega
      rw [dif_pos hc, dif_pos hc']
      have e : c - a = (c - (a + 1)) + 1 := by omega
      simp [e]
    · rw [dif_neg hc]
      by_cases he : c = a
      · subst he; simp
      · have hc' : ¬ (a ≤ c ∧ c < a + (v :: vs).length) := by simp only [List.length_cons]; omega
        rw [dif_neg hc', if_neg he]

/-! ## Ranges -/

/-- The bounds check finds nothing exactly in a range that is empty or ends within memory. -/
theorem lowestOutOfBounds_none {a len : Nat} :
    lowestOutOfBounds a len = none ↔ len = 0 ∨ a + len ≤ Config.memSize := by
  unfold lowestOutOfBounds; split <;> simp_all

/-- What the bounds check finds is in the range, above 0xFFF, and nothing lower in the range is. -/
theorem lowestOutOfBounds_some {a len b : Nat} (h : lowestOutOfBounds a len = some b) :
    a ≤ b ∧ b < a + len ∧ Config.memSize ≤ b ∧ ∀ c, a ≤ c → c < b → c < Config.memSize := by
  unfold lowestOutOfBounds at h
  split at h
  · cases h
  · simp only [Option.some.injEq] at h
    exact ⟨by omega, by omega, by omega, fun c _ hc => by omega⟩

/-- Everything `storeRange` can do. -/
theorem State.storeRange_cases (s : State) (a : Nat) (bytes : List Byte) :
    ((bytes.length = 0 ∨ a + bytes.length ≤ Config.memSize) ∧
      s.storeRange a bytes = .ok (s.writeMem (s.Mem.setRange s.font a bytes))) ∨
    (bytes.length ≠ 0 ∧ a + bytes.length > Config.memSize ∧
      s.storeRange a bytes = .error (.outOfBounds (max a Config.memSize))) := by
  unfold State.storeRange lowestOutOfBounds
  by_cases h : bytes.length = 0 ∨ a + bytes.length ≤ Config.memSize
  · exact .inl ⟨h, by rw [if_pos h]⟩
  · exact .inr ⟨by omega, by omega, by rw [if_neg h]⟩

/-- Everything `readRange` can do. -/
theorem State.readRange_cases (s : State) (a len : Nat) :
    ((len = 0 ∨ a + len ≤ Config.memSize) ∧
      s.readRange a len = .ok ((List.range len).map fun k => s.readByte (a + k))) ∨
    (len ≠ 0 ∧ a + len > Config.memSize ∧
      s.readRange a len = .error (.outOfBounds (max a Config.memSize))) := by
  unfold State.readRange lowestOutOfBounds
  by_cases h : len = 0 ∨ a + len ≤ Config.memSize
  · exact .inl ⟨h, by rw [if_pos h]⟩
  · exact .inr ⟨by omega, by omega, by rw [if_neg h]⟩

/-- What a store leaves at every address, when memory was canonical. -/
theorem State.readByte_storeRange {s t : State} {a : Nat} {bytes : List Byte}
    (hm : s.Mem.wf s.font = true) (ha : a + bytes.length ≤ Config.memSize)
    (h : s.storeRange a bytes = .ok t) (c : Nat) :
    t.readByte c = if hc : a ≤ c ∧ c < a + bytes.length then bytes[c - a]'(by omega) else s.readByte c := by
  rcases s.storeRange_cases a bytes with ⟨_, h'⟩ | ⟨_, _, h'⟩
  · rw [h'] at h
    cases h
    exact Memory.get_setRange hm a c bytes ha
  · rw [h'] at h; cases h

end Sys2Proof.Machine
end

