-- ==== Sys2Proof/Laws/Ops.lean ====
section
/-! SUPPORT. What each shared operation can do, said once: failures, the stack, the register file, the fetch
and the range forms of the operands. -/

namespace Sys2Proof.Machine

/-! ## Failures -/

@[simp] theorem State.settle_ok (s t : State) : s.settle (.ok t) = .next t := rfl
@[simp] theorem State.settle_error (s : State) (k : FailureKind) : s.settle (.error k) = .next (s.raise k) := rfl

/-- Settling always gives a next state: the one of the operation, or the failure. -/
theorem State.settle_cases (s : State) (r : Except FailureKind State) :
    (∃ t, r = .ok t ∧ s.settle r = .next t) ∨ (∃ k, r = .error k ∧ s.settle r = .next (s.raise k)) := by
  cases r with
  | ok t => exact .inl ⟨t, rfl, rfl⟩
  | error k => exact .inr ⟨k, rfl, rfl⟩

/-! ## The stack -/

/-- Everything a push can do. -/
theorem State.push_cases (s : State) (a : Word) :
    (s.SP = 16 ∧ s.push a = .error .stackOverflow) ∨
    (∃ k : Fin 16, s.SP.val = k.val ∧ s.push a =
      .ok ((s.writeSlot k a).writeSP ⟨k.val + 1, by omega⟩)) := by
  by_cases h : s.SP.val < 16
  · exact .inr ⟨⟨s.SP.val, h⟩, rfl, by simp [State.push, h]⟩
  · refine .inl ⟨Fin.ext ?_, by simp [State.push, h]⟩
    have := s.SP.isLt
    show s.SP.val = 16
    omega

/-- Everything a pop can do. -/
theorem State.pop_cases (s : State) :
    (s.SP = 0 ∧ s.pop = .error .stackUnderflow) ∨
    (∃ k : Fin 16, s.SP.val = k.val + 1 ∧
      s.pop = .ok (s.Stack[k.val], s.writeSP ⟨k.val, by omega⟩)) := by
  by_cases h : s.SP.val = 0
  · exact .inl ⟨Fin.ext h, by simp [State.pop, h]⟩
  · have hlt := s.SP.isLt
    refine .inr ⟨⟨s.SP.val - 1, by omega⟩, by simp only; omega, by simp [State.pop, h]⟩

/-! ## The register file -/

/-- A register after a load of several from register k on: the byte at its place, if there is one. -/
theorem writeRegsFrom_get (V : Vector Byte 16) (k : Nat) (bytes : List Byte) (r : Nat) (hr : r < 16) :
    (writeRegsFrom V k bytes)[r] =
      if h : k ≤ r ∧ r < k + bytes.length then bytes[r - k]'(by omega) else V[r] := by
  induction bytes generalizing V k with
  | nil =>
    have : ¬ (k ≤ r ∧ r < k + ([] : List Byte).length) := by simp
    rw [dif_neg this]; rfl
  | cons b bs ih =>
    by_cases hk : k < 16
    · have hw : writeRegsFrom V k (b :: bs) = writeRegsFrom (V.set k b) (k + 1) bs := by
        simp [writeRegsFrom, hk]
      simp only [hw]
      rw [ih]
      by_cases h : k + 1 ≤ r ∧ r < k + 1 + bs.length
      · have h' : k ≤ r ∧ r < k + (b :: bs).length := by simp only [List.length_cons]; omega
        rw [dif_pos h, dif_pos h']
        have e : r - k = (r - (k + 1)) + 1 := by omega
        simp [e]
      · rw [dif_neg h, Vector.getElem_set]
        by_cases he : k = r
        · subst he; simp
        · have h' : ¬ (k ≤ r ∧ r < k + (b :: bs).length) := by simp only [List.length_cons]; omega
          rw [if_neg he, dif_neg h']
    · have hw : writeRegsFrom V k (b :: bs) = V := by simp [writeRegsFrom, hk]
      simp only [hw]
      have h' : ¬ (k ≤ r ∧ r < k + (b :: bs).length) := by omega
      rw [dif_neg h']

/-- A register after a load of several from V0 on. -/
theorem State.readV_writeRegs (s : State) (bytes : List Byte) (r : Reg) :
    (s.writeRegs bytes).readV r = if h : r.val < bytes.length then bytes[r.val] else s.readV r := by
  have h := writeRegsFrom_get s.V 0 bytes r.val r.isLt
  simp only [Nat.zero_le, true_and, Nat.zero_add, Nat.sub_zero] at h
  exact h

/-! ## Operand forms -/

@[simp] theorem zext16_toNat (nnn : Addr12) : (zext16 nnn).toNat = nnn.toNat := by
  have h := nnn.isLt
  simp only [zext16, BitVec.toNat_setWidth]
  omega

@[simp] theorem bcdDigits_length (v : Byte) : (bcdDigits v).length = 3 := rfl

@[simp] theorem regsThrough_length (s : State) (x : Reg) : (regsThrough s x).length = x.val + 1 := by
  have h := x.isLt
  simp only [regsThrough, List.length_take, Vector.length_toList]
  omega

theorem regsThrough_get (s : State) (x : Reg) (k : Nat) (h : k < (regsThrough s x).length) :
    (regsThrough s x)[k] = s.V[k]'(by have := x.isLt; rw [regsThrough_length] at h; omega) := by
  simp [regsThrough]

@[simp] theorem dataAddress_zero (s : State) : dataAddress s 0 = s.I.toNat := rfl

/-! ## Fetch -/

/-- Everything a fetch can do (R71). -/
theorem fetch_cases (s : State) :
    (s.pc.toNat > 0xFFF ∧ fetch s = .error (.outOfBounds s.pc.toNat)) ∨
    (s.pc.toNat = 0xFFF ∧ fetch s = .error (.outOfBounds 0x1000)) ∨
    (s.pc.toNat ≤ 0xFFE ∧
      fetch s = .ok (wordOfBytes (s.readByte s.pc.toNat) (s.readByte (s.pc.toNat + 1)))) := by
  have hsize : Config.memSize = 0x1000 := rfl
  by_cases h1 : s.pc.toNat > 0xFFF
  · have h : ¬ s.pc.toNat < Config.memSize := by omega
    exact .inl ⟨h1, by simp [fetch, State.memRead, h]⟩
  · by_cases h2 : s.pc.toNat = 0xFFF
    · exact .inr (.inl ⟨h2, by simp [fetch, State.memRead, h2, hsize]⟩)
    · have h : s.pc.toNat < Config.memSize := by omega
      have h' : s.pc.toNat + 1 < Config.memSize := by omega
      exact .inr (.inr ⟨by omega, by simp [fetch, State.memRead, h, h']⟩)

/-- The fetch depends on pc, memory and the configuration alone. -/
theorem fetch_eq_of (s t : State) (hp : t.pc = s.pc) (hm : t.Mem = s.Mem) (hf : t.font = s.font) :
    fetch t = fetch s := by
  have h : ∀ a, t.memRead a = s.memRead a := fun a => by
    simp [State.memRead, State.readByte_eq_of s t hm hf]
  simp [fetch, h, hp]

theorem fetchInstr_eq_of (s t : State) (hp : t.pc = s.pc) (hm : t.Mem = s.Mem) (hf : t.font = s.font) :
    fetchInstr t = fetchInstr s := by
  simp [fetchInstr, fetch_eq_of s t hp hm hf]

@[simp] theorem fetchInstr_raise (s : State) (k : FailureKind) : fetchInstr (s.raise k) = fetchInstr s := rfl
@[simp] theorem fetchInstr_setRun (s : State) (r : RunState) : fetchInstr (s.setRun r) = fetchInstr s := rfl
@[simp] theorem fetchInstr_useInput (s : State) : fetchInstr s.useInput = fetchInstr s := rfl

end Sys2Proof.Machine
end

