-- ==== Sys2Proof/Laws/Cycle.lean ====
section
/-! SUPPORT. What a cycle and a step can do, said once. Claims about steps go through `step_cases`. -/

namespace Sys2Proof.Machine

/-! ## The ends of a cycle -/

theorem endCycle_of_running {s t : State} (h : t.run = .running) : endCycle s t = t.complete := by
  simp [endCycle, h]

theorem endCycle_of_faulted {s t : State} {k : FailureKind} (h : t.run = .faulted k) :
    endCycle s t = s.raise k := by
  simp [endCycle, h]

theorem endCycle_of_halted {s t : State} (h : t.run = .halted) : endCycle s t = s.setRun .halted := by
  simp [endCycle, h]

theorem endCycle_of_awaiting {s t : State} (h : t.run = .awaitingKey) :
    endCycle s t = (s.setRun .awaitingKey).useInput := by
  simp [endCycle, h]

/-- Everything the end of a cycle can do. -/
theorem endCycle_cases (s t : State) :
    (t.run = .running ∧ endCycle s t = t.complete) ∨
    (∃ k, t.run = .faulted k ∧ endCycle s t = s.raise k) ∨
    (t.run = .halted ∧ endCycle s t = s.setRun .halted) ∨
    (t.run = .awaitingKey ∧ endCycle s t = (s.setRun .awaitingKey).useInput) := by
  cases h : t.run with
  | running => exact .inl ⟨rfl, endCycle_of_running h⟩
  | faulted k => exact .inr (.inl ⟨k, rfl, endCycle_of_faulted h⟩)
  | halted => exact .inr (.inr (.inl ⟨rfl, endCycle_of_halted h⟩))
  | awaitingKey => exact .inr (.inr (.inr ⟨rfl, endCycle_of_awaiting h⟩))

/-! ## The step -/

theorem step_of_live {s : State} (h : s.live) : step s = cycle s := by
  rcases h with h | h <;> simp [step, h]

/-- A failing fetch or decode is the failure of the cycle. -/
theorem step_of_fetch_error {s : State} {k : FailureKind} (h : s.live) (hf : fetchInstr s = .error k) :
    step s = .next (s.raise k) := by
  simp [step_of_live h, cycle, hf]

/-- A step of a live state is the decoded instruction's execute step and the end of the cycle. -/
theorem step_of_exec_next {s t : State} {i : Instr} (h : s.live) (hf : fetchInstr s = .ok i)
    (he : exec i s.beginCycle = .next t) : step s = .next (endCycle s t) := by
  simp [step_of_live h, cycle, hf, he]

/-- A state with a next state is live. -/
theorem live_of_step {s u : State} (h : step s = .next u) : s.live := by
  cases hr : s.run with
  | running => exact .inl hr
  | awaitingKey => exact .inr hr
  | halted => simp [step, hr] at h
  | faulted k => simp [step, hr] at h

/-- Everything a step that gives a next state can have done. -/
theorem step_cases {s u : State} (h : step s = .next u) :
    s.live ∧
    ((∃ k, fetchInstr s = .error k ∧ u = s.raise k) ∨
     (∃ i t, fetchInstr s = .ok i ∧ exec i s.beginCycle = .next t ∧ u = endCycle s t)) := by
  have hl := live_of_step h
  refine ⟨hl, ?_⟩
  cases hf : fetchInstr s with
  | error k =>
    rw [step_of_fetch_error hl hf] at h
    cases h
    exact .inl ⟨k, rfl, rfl⟩
  | ok i =>
    cases he : exec i s.beginCycle with
    | next t =>
      rw [step_of_exec_next hl hf he] at h
      cases h
      exact .inr ⟨i, t, rfl, he, rfl⟩
    | fault f => simp [step_of_live hl, cycle, hf, he] at h
    | refused r => simp [step_of_live hl, cycle, hf, he] at h

/-- A predicate that a failure, a completed cycle, a halt and a wait each keep is kept by every step. -/
theorem step_keeps {P : State → Prop} {s u : State} (h : step s = .next u)
    (hraise : ∀ k, P (s.raise k))
    (hhalt : P (s.setRun .halted))
    (hwait : ∀ i t, fetchInstr s = .ok i → exec i s.beginCycle = .next t → t.run = .awaitingKey →
      P (s.setRun .awaitingKey).useInput)
    (hdone : ∀ i t, fetchInstr s = .ok i → exec i s.beginCycle = .next t → t.run = .running → P t.complete) :
    P u := by
  obtain ⟨_, ⟨k, _, rfl⟩ | ⟨i, t, hf, he, rfl⟩⟩ := step_cases h
  · exact hraise k
  · obtain ⟨hr, e⟩ | ⟨k, _, e⟩ | ⟨_, e⟩ | ⟨hr, e⟩ := endCycle_cases s t <;> rw [e]
    · exact hdone i t hf he hr
    · exact hraise k
    · exact hhalt
    · exact hwait i t hf he hr

end Sys2Proof.Machine
end

