-- ==== Sys2Proof/Laws/Decode.lean ====
section
/-! SUPPORT. What the formats of R58 put where: the numbers the words stand for, and the field extractors
of R57 over each layout. -/

namespace Sys2Proof

@[simp] theorem regOf_bitsOf (r : Reg) : regOf (bitsOf r) = r := by
  revert r; decide

@[simp] theorem bitsOf_regOf (b : Nibble) : bitsOf (regOf b) = b := by
  revert b; decide

@[simp] theorem bitsOf_toNat (r : Reg) : (bitsOf r).toNat = r.val := by
  revert r; decide

/-! ## The numbers -/

/-- A concatenation as a number: the upper part is scaled past the lower one (R8). -/
theorem append_toNat {m n : Nat} (a : BitVec m) (b : BitVec n) :
    (a ++ b).toNat = a.toNat * 2 ^ n + b.toNat := by
  rw [BitVec.toNat_append, ← Nat.shiftLeft_add_eq_or_of_lt b.isLt, Nat.shiftLeft_eq]

theorem formatA_toNat (op : Nibble) (nnn : Addr12) :
    (formatA op nnn).toNat = op.toNat * 0x1000 + nnn.toNat :=
  append_toNat op nnn

theorem formatXK_toNat (op : Nibble) (x : Reg) (kk : Byte) :
    (formatXK op x kk).toNat = op.toNat * 0x1000 + x.val * 0x100 + kk.toNat := by
  have h : (formatXK op x kk).toNat = ((op ++ bitsOf x) ++ kk).toNat := rfl
  rw [h, append_toNat, append_toNat, bitsOf_toNat]
  omega

theorem formatXYN_toNat (op : Nibble) (x y : Reg) (n : Nibble) :
    (formatXYN op x y n).toNat = op.toNat * 0x1000 + x.val * 0x100 + y.val * 0x10 + n.toNat := by
  have h : (formatXYN op x y n).toNat = (((op ++ bitsOf x) ++ bitsOf y) ++ n).toNat := rfl
  rw [h, append_toNat, append_toNat, append_toNat, bitsOf_toNat, bitsOf_toNat]
  omega

/-! ## The fields of a word, as numbers -/

theorem fieldOp_toNat (w : Word) : (fieldOp w).toNat = w.toNat / 0x1000 := by
  have h := w.isLt
  simp only [fieldOp, BitVec.extractLsb'_toNat, Nat.shiftRight_eq_div_pow]
  omega

theorem fieldX_val (w : Word) : (fieldX w).val = w.toNat / 0x100 % 0x10 := by
  simp [fieldX, regOf, BitVec.extractLsb'_toNat, Nat.shiftRight_eq_div_pow]

theorem fieldY_val (w : Word) : (fieldY w).val = w.toNat / 0x10 % 0x10 := by
  simp [fieldY, regOf, BitVec.extractLsb'_toNat, Nat.shiftRight_eq_div_pow]

theorem fieldN_toNat (w : Word) : (fieldN w).toNat = w.toNat % 0x10 := by
  simp [fieldN, BitVec.extractLsb'_toNat]

theorem fieldKK_toNat (w : Word) : (fieldKK w).toNat = w.toNat % 0x100 := by
  simp [fieldKK, BitVec.extractLsb'_toNat]

theorem fieldNNN_toNat (w : Word) : (fieldNNN w).toNat = w.toNat % 0x1000 := by
  simp [fieldNNN, BitVec.extractLsb'_toNat]

/-! ## The fields of the formats -/

@[simp] theorem fieldOp_formatA (op : Nibble) (nnn : Addr12) : fieldOp (formatA op nnn) = op := by
  have h := nnn.isLt
  apply BitVec.eq_of_toNat_eq
  rw [fieldOp_toNat, formatA_toNat]; omega

@[simp] theorem fieldNNN_formatA (op : Nibble) (nnn : Addr12) : fieldNNN (formatA op nnn) = nnn := by
  have h := nnn.isLt
  apply BitVec.eq_of_toNat_eq
  rw [fieldNNN_toNat, formatA_toNat]; omega

@[simp] theorem fieldOp_formatXK (op : Nibble) (x : Reg) (kk : Byte) : fieldOp (formatXK op x kk) = op := by
  have h := kk.isLt
  have hx := x.isLt
  apply BitVec.eq_of_toNat_eq
  rw [fieldOp_toNat, formatXK_toNat]; omega

@[simp] theorem fieldX_formatXK (op : Nibble) (x : Reg) (kk : Byte) : fieldX (formatXK op x kk) = x := by
  have h := kk.isLt
  have hx := x.isLt
  apply Fin.ext
  rw [fieldX_val, formatXK_toNat]; omega

@[simp] theorem fieldKK_formatXK (op : Nibble) (x : Reg) (kk : Byte) : fieldKK (formatXK op x kk) = kk := by
  have h := kk.isLt
  apply BitVec.eq_of_toNat_eq
  rw [fieldKK_toNat, formatXK_toNat]; omega

@[simp] theorem fieldOp_formatXYN (op : Nibble) (x y : Reg) (n : Nibble) :
    fieldOp (formatXYN op x y n) = op := by
  have h := n.isLt
  have hx := x.isLt
  have hy := y.isLt
  apply BitVec.eq_of_toNat_eq
  rw [fieldOp_toNat, formatXYN_toNat]; omega

@[simp] theorem fieldX_formatXYN (op : Nibble) (x y : Reg) (n : Nibble) :
    fieldX (formatXYN op x y n) = x := by
  have h := n.isLt
  have hx := x.isLt
  have hy := y.isLt
  apply Fin.ext
  rw [fieldX_val, formatXYN_toNat]; omega

@[simp] theorem fieldY_formatXYN (op : Nibble) (x y : Reg) (n : Nibble) :
    fieldY (formatXYN op x y n) = y := by
  have h := n.isLt
  have hy := y.isLt
  apply Fin.ext
  rw [fieldY_val, formatXYN_toNat]; omega

@[simp] theorem fieldN_formatXYN (op : Nibble) (x y : Reg) (n : Nibble) :
    fieldN (formatXYN op x y n) = n := by
  have h := n.isLt
  apply BitVec.eq_of_toNat_eq
  rw [fieldN_toNat, formatXYN_toNat]; omega

/-! ## The words of the fields -/

/-- A word is its `op` and `nnn` (R57). -/
theorem formatA_fields (w : Word) : formatA (fieldOp w) (fieldNNN w) = w := by
  apply BitVec.eq_of_toNat_eq
  rw [formatA_toNat, fieldOp_toNat, fieldNNN_toNat]; omega

/-- A word is its `op`, `x` and `kk` (R57). -/
theorem formatXK_fields (w : Word) : formatXK (fieldOp w) (fieldX w) (fieldKK w) = w := by
  apply BitVec.eq_of_toNat_eq
  rw [formatXK_toNat, fieldOp_toNat, fieldX_val, fieldKK_toNat]; omega

/-- A word is its `op`, `x`, `y` and `n` (R57). -/
theorem formatXYN_fields (w : Word) : formatXYN (fieldOp w) (fieldX w) (fieldY w) (fieldN w) = w := by
  apply BitVec.eq_of_toNat_eq
  rw [formatXYN_toNat, fieldOp_toNat, fieldX_val, fieldY_val, fieldN_toNat]; omega

/-! ## The masks of the opcode map R61 -/

/-- The mask 0xF000 keeps `op`. -/
theorem and_F000 (w : Word) : w &&& 0xF000 = formatA (fieldOp w) 0 := by
  apply BitVec.eq_of_getLsbD_eq
  intro i hi
  show _ = (fieldOp w ++ (0 : Addr12)).getLsbD i
  rw [BitVec.getLsbD_append]
  simp only [fieldOp, BitVec.getLsbD_extractLsb']
  interval_cases i <;> simp

/-- The mask 0xF0FF keeps `op` and `kk`. -/
theorem and_F0FF (w : Word) : w &&& 0xF0FF = formatXK (fieldOp w) 0 (fieldKK w) := by
  apply BitVec.eq_of_getLsbD_eq
  intro i hi
  show _ = ((fieldOp w ++ (0 : Nibble)) ++ fieldKK w).getLsbD i
  rw [BitVec.getLsbD_append, BitVec.getLsbD_append]
  simp only [fieldOp, fieldKK, BitVec.getLsbD_extractLsb']
  interval_cases i <;> simp

/-- The mask 0xF00F keeps `op` and `n`. -/
theorem and_F00F (w : Word) : w &&& 0xF00F = formatXYN (fieldOp w) 0 0 (fieldN w) := by
  apply BitVec.eq_of_getLsbD_eq
  intro i hi
  show _ = (((fieldOp w ++ (0 : Nibble)) ++ (0 : Nibble)) ++ fieldN w).getLsbD i
  rw [BitVec.getLsbD_append, BitVec.getLsbD_append, BitVec.getLsbD_append]
  simp only [fieldOp, fieldN, BitVec.getLsbD_extractLsb']
  interval_cases i <;> simp

/-- A word is legal as soon as one row of the opcode map matches it (R62). -/
theorem wordLegal_of_row {w : Word} (row : OpcodeRow) (hrow : row ∈ opcodeTable)
    (h : w &&& row.mask = row.bits) : wordLegal w = true :=
  List.any_eq_true.mpr ⟨row, hrow, by simp [OpcodeRow.matches, h]⟩

/-- The two bytes of a word, put together again, are the word (R41, R56). -/
theorem wordOfBytes_bytes (w : Word) : wordOfBytes (w.extractLsb' 8 8) (w.extractLsb' 0 8) = w := by
  apply BitVec.eq_of_toNat_eq
  have h := w.isLt
  have e : ∀ a b : Byte, (wordOfBytes a b).toNat = a.toNat * 256 + b.toNat := fun a b => append_toNat a b
  rw [e]
  simp only [BitVec.extractLsb'_toNat, Nat.shiftRight_eq_div_pow]
  omega

/-- `w = Mem[pc] * 256 + Mem[pc+1]` (R56). -/
theorem wordOfBytes_toNat (high low : Byte) :
    (wordOfBytes high low).toNat = high.toNat * 256 + low.toNat :=
  append_toNat high low

end Sys2Proof
end

