-- ==== Sys2Proof/Laws/Display.lean ====
section
/-! SUPPORT. The display buffer, pixel by pixel. -/

namespace Sys2Proof.Machine

/-- A pixel after a write: the written one reads as written, every other as before. -/
@[simp] theorem Screen.pixel_setPixel (fb : Screen) (row r : Fin 32) (col c : Fin 64) (b : Bool) :
    (fb.setPixel row col b).pixel r c = if r = row ∧ c = col then b else fb.pixel r c := by
  unfold Screen.setPixel Screen.pixel
  by_cases hr : r = row
  · subst hr
    by_cases hc : c = col
    · subst hc; simp
    · have hne : ¬ col.val = c.val := fun h => hc (Fin.ext h.symm)
      simp [hc, hne]
  · have hne : ¬ row.val = r.val := fun h => hr (Fin.ext h.symm)
    simp [hr, hne]

@[simp] theorem Screen.pixel_blank (row : Fin 32) (col : Fin 64) : Screen.blank.pixel row col = false := by
  simp [Screen.blank, Screen.pixel]

/-- Buffers with equal pixels are equal. -/
theorem Screen.ext_pixel {a b : Screen} (h : ∀ row col, a.pixel row col = b.pixel row col) : a = b := by
  apply Vector.ext
  intro r hr
  apply Vector.ext
  intro c hc
  exact h ⟨r, hr⟩ ⟨c, hc⟩

/-- One plotted pixel toggles by the sprite's bit. -/
@[simp] theorem Drawing.plot_pixel (d : Drawing) (row r : Fin 32) (col c : Fin 64) (bit : Bool) :
    (d.plot row col bit).fb.pixel r c =
      (d.fb.pixel r c ^^ (bit && decide (r = row ∧ c = col))) := by
  simp only [Drawing.plot, Screen.pixel_setPixel]
  by_cases h : r = row ∧ c = col
  · obtain ⟨rfl, rfl⟩ := h; simp
  · simp [h]

@[simp] theorem Drawing.plot_collision (d : Drawing) (row : Fin 32) (col : Fin 64) (bit : Bool) :
    (d.plot row col bit).collision = (d.collision || (d.fb.pixel row col && bit)) := rfl

/-- The flag byte is 1 or 0. -/
theorem flagByte_toNat (b : Bool) : (flagByte b).toNat = if b then 1 else 0 := by cases b <;> rfl

end Sys2Proof.Machine
end

