-- ==== Sys2Proof/Laws/PerInstr.lean ====
section
/-! SUPPORT. Laws made per instruction. Family LegalWord: the encoder's word of every instruction matches a
row of the opcode map (30_encoding.md rules R61 and R62). -/

namespace Sys2Proof.Laws.LegalWord

/-- The word of the instruction is legal. -/
def Statement (i : Instr) : Prop := wordLegal (encode i) = true

/-- A word of format A under the mask of its row. -/
theorem ofA {op : Nibble} {nnn : Addr12} {bits : Word} (p : String)
    (hrow : ⟨p, bits, 0xF000⟩ ∈ opcodeTable) (h : formatA op 0 = bits) :
    wordLegal (formatA op nnn) = true :=
  wordLegal_of_row _ hrow (by rw [and_F000, fieldOp_formatA, h])

/-- A word of format XK under the mask of its row. -/
theorem ofXK {op : Nibble} {x : Reg} {kk : Byte} {bits : Word} (p : String)
    (hrow : ⟨p, bits, 0xF000⟩ ∈ opcodeTable) (h : formatA op 0 = bits) :
    wordLegal (formatXK op x kk) = true :=
  wordLegal_of_row _ hrow (by rw [and_F000, fieldOp_formatXK, h])

/-- A word of format XF under the mask of its row. -/
theorem ofXF {op : Nibble} {x : Reg} {kk : Byte} {bits : Word} (p : String)
    (hrow : ⟨p, bits, 0xF0FF⟩ ∈ opcodeTable) (h : formatXK op 0 kk = bits) :
    wordLegal (formatXK op x kk) = true :=
  wordLegal_of_row _ hrow (by rw [and_F0FF, fieldOp_formatXK, fieldKK_formatXK, h])

/-- A word of format XY under the mask of its row. -/
theorem ofXY {op : Nibble} {x y : Reg} {n : Nibble} {bits : Word} (p : String)
    (hrow : ⟨p, bits, 0xF00F⟩ ∈ opcodeTable) (h : formatXYN op 0 0 n = bits) :
    wordLegal (formatXYN op x y n) = true :=
  wordLegal_of_row _ hrow (by rw [and_F00F, fieldOp_formatXYN, fieldN_formatXYN, h])

/-- A word of format XYN under the mask of its row. -/
theorem ofXYN {op : Nibble} {x y : Reg} {n : Nibble} {bits : Word} (p : String)
    (hrow : ⟨p, bits, 0xF000⟩ ∈ opcodeTable) (h : formatA op 0 = bits) :
    wordLegal (formatXYN op x y n) = true :=
  wordLegal_of_row _ hrow (by rw [and_F000, fieldOp_formatXYN, h])

theorem cls : Statement .cls := (by decide : wordLegal 0x00E0 = true)
theorem ret : Statement .ret := (by decide : wordLegal 0x00EE = true)
theorem jp (nnn : Addr12) : Statement (.jp nnn) := ofA (bits := 0x1000) "1nnn" (by decide) (by decide)
theorem call (nnn : Addr12) : Statement (.call nnn) := ofA (bits := 0x2000) "2nnn" (by decide) (by decide)
theorem seImm (x : Reg) (kk : Byte) : Statement (.seImm x kk) := ofXK (bits := 0x3000) "3xkk" (by decide) (by decide)
theorem sneImm (x : Reg) (kk : Byte) : Statement (.sneImm x kk) := ofXK (bits := 0x4000) "4xkk" (by decide) (by decide)
theorem seReg (x : Reg) (y : Reg) : Statement (.seReg x y) := ofXY (bits := 0x5000) "5xy0" (by decide) (by decide)
theorem ldImm (x : Reg) (kk : Byte) : Statement (.ldImm x kk) := ofXK (bits := 0x6000) "6xkk" (by decide) (by decide)
theorem addImm (x : Reg) (kk : Byte) : Statement (.addImm x kk) := ofXK (bits := 0x7000) "7xkk" (by decide) (by decide)
theorem ldReg (x : Reg) (y : Reg) : Statement (.ldReg x y) := ofXY (bits := 0x8000) "8xy0" (by decide) (by decide)
theorem orReg (x : Reg) (y : Reg) : Statement (.orReg x y) := ofXY (bits := 0x8001) "8xy1" (by decide) (by decide)
theorem andReg (x : Reg) (y : Reg) : Statement (.andReg x y) := ofXY (bits := 0x8002) "8xy2" (by decide) (by decide)
theorem xorReg (x : Reg) (y : Reg) : Statement (.xorReg x y) := ofXY (bits := 0x8003) "8xy3" (by decide) (by decide)
theorem addReg (x : Reg) (y : Reg) : Statement (.addReg x y) := ofXY (bits := 0x8004) "8xy4" (by decide) (by decide)
theorem sub (x : Reg) (y : Reg) : Statement (.sub x y) := ofXY (bits := 0x8005) "8xy5" (by decide) (by decide)
theorem shr (x : Reg) (y : Reg) : Statement (.shr x y) := ofXY (bits := 0x8006) "8xy6" (by decide) (by decide)
theorem subn (x : Reg) (y : Reg) : Statement (.subn x y) := ofXY (bits := 0x8007) "8xy7" (by decide) (by decide)
theorem shl (x : Reg) (y : Reg) : Statement (.shl x y) := ofXY (bits := 0x800E) "8xyE" (by decide) (by decide)
theorem sneReg (x : Reg) (y : Reg) : Statement (.sneReg x y) := ofXY (bits := 0x9000) "9xy0" (by decide) (by decide)
theorem ldI (nnn : Addr12) : Statement (.ldI nnn) := ofA (bits := 0xA000) "Annn" (by decide) (by decide)
theorem jpV0 (nnn : Addr12) : Statement (.jpV0 nnn) := ofA (bits := 0xB000) "Bnnn" (by decide) (by decide)
theorem rnd (x : Reg) (kk : Byte) : Statement (.rnd x kk) := ofXK (bits := 0xC000) "Cxkk" (by decide) (by decide)
theorem drw (x : Reg) (y : Reg) (n : Fin 16) : Statement (.drw x y n) := ofXYN (bits := 0xD000) "Dxyn" (by decide) (by decide)
theorem skp (x : Reg) : Statement (.skp x) := ofXF (bits := 0xE09E) "Ex9E" (by decide) (by decide)
theorem sknp (x : Reg) : Statement (.sknp x) := ofXF (bits := 0xE0A1) "ExA1" (by decide) (by decide)
theorem ldVxDT (x : Reg) : Statement (.ldVxDT x) := ofXF (bits := 0xF007) "Fx07" (by decide) (by decide)
theorem ldVxK (x : Reg) : Statement (.ldVxK x) := ofXF (bits := 0xF00A) "Fx0A" (by decide) (by decide)
theorem ldDTVx (x : Reg) : Statement (.ldDTVx x) := ofXF (bits := 0xF015) "Fx15" (by decide) (by decide)
theorem ldSTVx (x : Reg) : Statement (.ldSTVx x) := ofXF (bits := 0xF018) "Fx18" (by decide) (by decide)
theorem addI (x : Reg) : Statement (.addI x) := ofXF (bits := 0xF01E) "Fx1E" (by decide) (by decide)
theorem ldF (x : Reg) : Statement (.ldF x) := ofXF (bits := 0xF029) "Fx29" (by decide) (by decide)
theorem ldB (x : Reg) : Statement (.ldB x) := ofXF (bits := 0xF033) "Fx33" (by decide) (by decide)
theorem ldMemVx (x : Reg) : Statement (.ldMemVx x) := ofXF (bits := 0xF055) "Fx55" (by decide) (by decide)
theorem ldVxMem (x : Reg) : Statement (.ldVxMem x) := ofXF (bits := 0xF065) "Fx65" (by decide) (by decide)

end Sys2Proof.Laws.LegalWord
end

