-- ==== Sys2Proof/Tests/Slice0.lean ====
section
/-! SUPPORT. The model's own tests: expected results are the vectors of 95_test_vectors.md (named by their
ids) and the words of the opcode map, and each theorem is one decode or one step. After them, a witness for
every statement that has hypotheses. -/

namespace Sys2Proof.Tests

set_option Elab.async false

open Sys2Proof.Machine

/-! ## Decoding, from the encodings of R61 written out bit by bit -/

theorem test_decode_cls : decodeTableWord 16 0b0000000011100000 = some .cls := by decide +kernel
theorem test_decode_ret : decodeTableWord 16 0b0000000011101110 = some .ret := by decide +kernel
theorem test_decode_jp : decodeTableWord 16 0b0001001000110100 = some (.jp 0x234) := by decide +kernel
theorem test_decode_call : decodeTableWord 16 0b0010001100000001 = some (.call 0x301) := by decide +kernel
theorem test_decode_seImm : decodeTableWord 16 0b0011001101000010 = some (.seImm 3 0x42) := by decide +kernel
theorem test_decode_sneImm : decodeTableWord 16 0b0100001101000010 = some (.sneImm 3 0x42) := by decide +kernel
theorem test_decode_seReg : decodeTableWord 16 0b0101000100100000 = some (.seReg 1 2) := by decide +kernel
theorem test_decode_ldImm : decodeTableWord 16 0b0110101010101011 = some (.ldImm 10 0xAB) := by decide +kernel
theorem test_decode_addImm : decodeTableWord 16 0b0111111100000001 = some (.addImm 15 1) := by decide +kernel
theorem test_decode_ldReg : decodeTableWord 16 0b1000000100100000 = some (.ldReg 1 2) := by decide +kernel
theorem test_decode_orReg : decodeTableWord 16 0b1000000100100001 = some (.orReg 1 2) := by decide +kernel
theorem test_decode_andReg : decodeTableWord 16 0b1000000100100010 = some (.andReg 1 2) := by decide +kernel
theorem test_decode_xorReg : decodeTableWord 16 0b1000000100100011 = some (.xorReg 1 2) := by decide +kernel
theorem test_decode_addReg : decodeTableWord 16 0b1000000100100100 = some (.addReg 1 2) := by decide +kernel
theorem test_decode_sub : decodeTableWord 16 0b1000000100100101 = some (.sub 1 2) := by decide +kernel
theorem test_decode_shr : decodeTableWord 16 0b1000000100100110 = some (.shr 1 2) := by decide +kernel
theorem test_decode_subn : decodeTableWord 16 0b1000000100100111 = some (.subn 1 2) := by decide +kernel
theorem test_decode_shl : decodeTableWord 16 0b1000000100101110 = some (.shl 1 2) := by decide +kernel
theorem test_decode_sneReg : decodeTableWord 16 0b1001000100100000 = some (.sneReg 1 2) := by decide +kernel
theorem test_decode_ldI : decodeTableWord 16 0b1010001011110000 = some (.ldI 0x2F0) := by decide +kernel
theorem test_decode_jpV0 : decodeTableWord 16 0b1011001100000000 = some (.jpV0 0x300) := by decide +kernel
theorem test_decode_rnd : decodeTableWord 16 0b1100001100001111 = some (.rnd 3 0x0F) := by decide +kernel
theorem test_decode_drw : decodeTableWord 16 0b1101000100100101 = some (.drw 1 2 5) := by decide +kernel
theorem test_decode_skp : decodeTableWord 16 0b1110010010011110 = some (.skp 4) := by decide +kernel
theorem test_decode_sknp : decodeTableWord 16 0b1110010010100001 = some (.sknp 4) := by decide +kernel
theorem test_decode_ldVxDT : decodeTableWord 16 0b1111001100000111 = some (.ldVxDT 3) := by decide +kernel
theorem test_decode_ldVxK : decodeTableWord 16 0b1111010100001010 = some (.ldVxK 5) := by decide +kernel
theorem test_decode_ldDTVx : decodeTableWord 16 0b1111001000010101 = some (.ldDTVx 2) := by decide +kernel
theorem test_decode_ldSTVx : decodeTableWord 16 0b1111001000011000 = some (.ldSTVx 2) := by decide +kernel
theorem test_decode_addI : decodeTableWord 16 0b1111001000011110 = some (.addI 2) := by decide +kernel
theorem test_decode_ldF : decodeTableWord 16 0b1111010100101001 = some (.ldF 5) := by decide +kernel
theorem test_decode_ldB : decodeTableWord 16 0b1111000000110011 = some (.ldB 0) := by decide +kernel
theorem test_decode_ldMemVx : decodeTableWord 16 0b1111001001010101 = some (.ldMemVx 2) := by decide +kernel
theorem test_decode_ldVxMem : decodeTableWord 16 0b1111001001100101 = some (.ldVxMem 2) := by decide +kernel

/-! ## The well-formedness smoke test: the checks refuse ill-formed words and images -/

/-- Vectors E-ILL-1 to E-ILL-11: one or more illegal words of each group of R62. -/
theorem test_illegal_words_refused :
    [0x0000, 0x0123, 0x00E1, 0x5121, 0x9ABF, 0x8008, 0x800F, 0xE000, 0xE19F, 0xF000, 0xF0FF].all
      (fun w => !wordLegal (BitVec.ofNat 16 w) && (decodeTableWord 16 w).isNone) = true := by decide +kernel

/-- S-LOAD: an image of 3585 bytes does not fit, one of 3584 does. -/
theorem test_image_size_refused :
    imageFits (List.replicate 3585 0) = false ∧ imageFits (List.replicate 3584 0) = true := by
  simp only [imageFits, List.length_replicate]
  decide

/-- Fewer than two bytes are no instruction (R56). -/
theorem test_truncated_refused : decodeBytes [0x12] = .error .truncated := by decide +kernel

/-! ## One step -/

/-- The cycle inputs of the vectors' common start state. -/
def quiet : Config.CycleInput := ⟨false, 0, .pending, Vector.replicate 16 false, false⟩

/-- The vectors' common start state with one instruction word at 0x200 and the inputs of one cycle. -/
def startWith (inp : Config.CycleInput) (w : Nat) : State :=
  ({ State.reset with inputs := [inp] } : State).withFetchWord 16 w

def start (w : Nat) : State := startWith quiet w

/-- Does the step give a next state with the property? -/
def after (s : State) (p : State → Bool) : Bool :=
  match step s with
  | .next t => p t
  | .fault _ => false
  | .refused _ => false

/-- Every row of the opcode map, at its match word, is run by the first step after reset, whatever the free
inputs are. -/
theorem test_every_row_runs_after_reset :
    opcodeTable.all (fun row => (decodeTableWord 16 row.bits.toNat).isSome &&
      after (State.reset.withFetchWord 16 row.bits.toNat) (fun _ => true)) = true := by decide +kernel

/-- C-RET-1. -/
theorem test_ret :
    after ((((start 0x0000).writeSlot 0 0x20A).writeSP 1).writePc 0x310 |>.withFetchWord 16 0x00EE)
      (fun t => t.pc == 0x20C && t.SP == 0) = true := by decide +kernel
/-- C-RET-2. -/
theorem test_ret_underflow :
    after (start 0x00EE) (fun t => t.run == .faulted .stackUnderflow && t.pc == 0x200) = true := by decide +kernel
/-- C-JP-1. -/
theorem test_jp : after (start 0x1234) (fun t => t.pc == 0x234 && !t.jump) = true := by decide +kernel
/-- C-CALL-1. -/
theorem test_call :
    after (start 0x2300) (fun t => t.pc == 0x300 && t.SP == 1 && t.Stack[0] == 0x200) = true := by decide +kernel
/-- C-CALL-2. -/
theorem test_call_overflow :
    after ((start 0x2300).writeSP 16) (fun t => t.run == .faulted .stackOverflow && t.SP == 16) = true := by
  decide +kernel
/-- C-BJP-3. -/
theorem test_jpV0 : after ((start 0xBFFF).writeV 0 0xFF) (fun t => t.pc == 0x10FE) = true := by decide +kernel
/-- C-BJP-4. -/
theorem test_jpV0_register :
    after (((start 0xB500).writeV 0 0x10).writeV 5 0x77) (fun t => t.pc == 0x510) = true := by decide +kernel
/-- C-SE-1. -/
theorem test_seImm : after ((start 0x3342).writeV 3 0x42) (fun t => t.pc == 0x204) = true := by decide +kernel
/-- C-SE-2. -/
theorem test_seImm_not : after ((start 0x3342).writeV 3 0x41) (fun t => t.pc == 0x202) = true := by decide +kernel
/-- C-SNE-1. -/
theorem test_sneImm : after ((start 0x4342).writeV 3 0x41) (fun t => t.pc == 0x204) = true := by decide +kernel
/-- C-SE2-2. -/
theorem test_seReg :
    after (((start 0x5120).writeV 1 7).writeV 2 8) (fun t => t.pc == 0x202) = true := by decide +kernel
/-- C-SNE2-1. -/
theorem test_sneReg :
    after (((start 0x9120).writeV 1 7).writeV 2 8) (fun t => t.pc == 0x204) = true := by decide +kernel
/-- A-LDI-1. -/
theorem test_ldImm : after (start 0x6AAB) (fun t => t.readV 10 == 0xAB && t.pc == 0x202) = true := by decide +kernel
/-- A-ADDI-1. -/
theorem test_addImm :
    after (((start 0x70FF).writeV 0 2).writeV 15 0x33) (fun t => t.readV 0 == 1 && t.readV 15 == 0x33) = true := by
  decide +kernel
/-- A-LD-1. -/
theorem test_ldReg :
    after (((start 0x8010).writeV 0 1).writeV 1 0x99) (fun t => t.readV 0 == 0x99 && t.readV 1 == 0x99) = true := by
  decide +kernel
/-- A-OR-1. -/
theorem test_orReg :
    after ((((start 0x8011).writeV 0 0xF0).writeV 1 0x0F).writeV 15 0x77)
      (fun t => t.readV 0 == 0xFF && t.readV 15 == 0x77) = true := by decide +kernel
/-- A-AND-1. -/
theorem test_andReg :
    after (((start 0x8012).writeV 0 0xF0).writeV 1 0x3C) (fun t => t.readV 0 == 0x30) = true := by decide +kernel
/-- A-XOR-1. -/
theorem test_xorReg :
    after (((start 0x8013).writeV 0 0xF0).writeV 1 0x3C) (fun t => t.readV 0 == 0xCC) = true := by decide +kernel
/-- A-ADD-6: with x = F the sum is overwritten by the flag. -/
theorem test_addReg_flag_last :
    after (((start 0x8F14).writeV 15 0x10).writeV 1 2) (fun t => t.readV 15 == 0) = true := by decide +kernel
/-- A-ADD-7: y = F reads the old VF. -/
theorem test_addReg_old_flag :
    after (((start 0x81F4).writeV 15 1).writeV 1 0xFF) (fun t => t.readV 1 == 0 && t.readV 15 == 1) = true := by
  decide +kernel
/-- A-SUB-1: equal operands give 0. -/
theorem test_sub_equal :
    after (((start 0x8015).writeV 0 0x42).writeV 1 0x42) (fun t => t.readV 0 == 0 && t.readV 15 == 0) = true := by
  decide +kernel
/-- S-SUB-1. -/
theorem test_sub :
    after (((start 0x8015).writeV 0 0xFF).writeV 1 1) (fun t => t.readV 0 == 0xFE && t.readV 15 == 1) = true := by
  decide +kernel
/-- A-SHR-1. -/
theorem test_shr :
    after (((start 0x8016).writeV 0 0xFF).writeV 1 0x55)
      (fun t => t.readV 0 == 0x7F && t.readV 15 == 1 && t.readV 1 == 0x55) = true := by decide +kernel
/-- A-SHR-6. -/
theorem test_shr_flag_last : after ((start 0x8F06).writeV 15 3) (fun t => t.readV 15 == 1) = true := by decide +kernel
/-- A-SUBN-2. -/
theorem test_subn :
    after (((start 0x8017).writeV 0 0xFF).writeV 1 1) (fun t => t.readV 0 == 2 && t.readV 15 == 0) = true := by
  decide +kernel
/-- A-SHL-3. -/
theorem test_shl :
    after ((start 0x800E).writeV 0 0x81) (fun t => t.readV 0 == 2 && t.readV 15 == 1) = true := by decide +kernel
/-- A-SHL-7. -/
theorem test_shl_flag_last : after ((start 0x8F0E).writeV 15 1) (fun t => t.readV 15 == 0) = true := by decide +kernel
/-- A-RND-1. -/
theorem test_rnd :
    after (startWith { quiet with rnd := 0xA7 } 0xC30F) (fun t => t.readV 3 == 7) = true := by decide +kernel
/-- M-LDI-1. -/
theorem test_ldI : after (start 0xA123) (fun t => t.I == 0x123) = true := by decide +kernel
/-- M-ADDI-2. -/
theorem test_addI :
    after (((start 0xF01E).writeI 0xFFFF |>.writeV 0 2).writeV 15 9) (fun t => t.I == 1 && t.readV 15 == 9) = true := by
  decide +kernel
/-- M-FONT-2. -/
theorem test_ldF : after ((start 0xF029).writeV 0 0x20) (fun t => t.I == 0xA0) = true := by decide +kernel
/-- M-BCD-8. -/
theorem test_ldB :
    after ((start 0xF033).writeV 0 0x7B |>.writeI 0xFFD)
      (fun t => t.readByte 0xFFD == 1 && t.readByte 0xFFE == 2 && t.readByte 0xFFF == 3) = true := by decide +kernel
/-- M-BCD-9. -/
theorem test_ldB_bounds :
    after ((start 0xF033).writeV 0 5 |>.writeI 0xFFE)
      (fun t => t.run == .faulted (.outOfBounds 0x1000) && t.readByte 0xFFE == 0) = true := by decide +kernel
/-- M-ST-1. -/
theorem test_ldMemVx :
    after (((((start 0xF355).writeV 0 1).writeV 1 2).writeV 2 3).writeV 3 4 |>.writeI 0xFFC)
      (fun t => t.readByte 0xFFC == 1 && t.readByte 0xFFF == 4 && t.I == 0xFFC) = true := by decide +kernel
/-- M-FONTW: the font area is writable. -/
theorem test_ldMemVx_font :
    after ((start 0xF055).writeV 0 0x99) (fun t => t.readByte 0 == 0x99 && t.readByte 1 == 0x90) = true := by
  decide +kernel
/-- M-LD-1, with the bytes of glyph 1 in the default font in the place of 09 08 07. -/
theorem test_ldVxMem :
    after (((start 0xF265).writeV 2 0x55).writeV 3 0x66 |>.writeI 5)
      (fun t => t.readV 0 == 0x20 && t.readV 1 == 0x60 && t.readV 2 == 0x20 && t.readV 3 == 0x66 && t.I == 5) = true := by
  decide +kernel
/-- A load whose range passes 0xFFF names the lowest address above it (R109). -/
theorem test_ldVxMem_bounds :
    after ((start 0xF165).writeI 0x1234) (fun t => t.run == .faulted (.outOfBounds 0x1234)) = true := by decide +kernel
/-- D-CLS-1. -/
theorem test_cls :
    after ((start 0x00E0).show (Screen.blank.setPixel 3 4 true))
      (fun t => !t.FB.pixel 3 4 && t.frames.length == 1) = true := by decide +kernel
/-- D-DRW-3: the sprite wraps on both axes. -/
theorem test_drw_wraps :
    after ((((start 0xD012).writeMem (Memory.setRange defaultFont (start 0xD012).Mem 0x300 [0xFF, 0x81])).writeI 0x300
        |>.writeV 0 0x3E).writeV 1 0x1F)
      (fun t => t.FB.pixel 31 62 && t.FB.pixel 31 63 && t.FB.pixel 31 0 && t.FB.pixel 31 5 && !t.FB.pixel 31 6 &&
        t.FB.pixel 0 62 && t.FB.pixel 0 5 && !t.FB.pixel 0 63 && t.readV 15 == 0) = true := by decide +kernel
/-- D-DRW-4: one pixel of glyph 0 is erased, one off it is kept. -/
theorem test_drw_collides :
    after ({ (start 0xD015) with FB := (Screen.blank.setPixel 0 0 true).setPixel 5 5 true } : State)
      (fun t => !t.FB.pixel 0 0 && t.FB.pixel 0 1 && t.FB.pixel 5 5 && t.FB.pixel 4 3 && t.readV 15 == 1 &&
        t.frames == [t.FB]) = true := by decide +kernel
/-- R113 by hand: a set bit over a pixel that is 1 erases it, and the second draw sets it again without a
collision (log entry 7). -/
theorem test_second_draw_need_not_collide :
    let first := drawSprite (Screen.blank.setPixel 0 0 true) 0 0 [0x80]
    (first.collision && !first.fb.pixel 0 0 && (drawSprite first.fb 0 0 [0x80]).fb.pixel 0 0 &&
      !(drawSprite first.fb 0 0 [0x80]).collision) = true := by decide +kernel
/-- K-SKP-1. -/
theorem test_skp :
    after ({ (start 0xE49E).writeV 4 10 with keys := (Vector.replicate 16 false).set 10 true } : State)
      (fun t => t.pc == 0x204) = true := by decide +kernel
/-- K-RANGE-1. -/
theorem test_skp_range :
    after ((start 0xE09E).writeV 0 16) (fun t => t.run == .faulted (.keyIndexOutOfRange 16)) = true := by decide +kernel
/-- K-SKNP-2. -/
theorem test_sknp : after ((start 0xE4A1).writeV 4 10) (fun t => t.pc == 0x204) = true := by decide +kernel
/-- K-RANGE-2. -/
theorem test_sknp_range :
    after ((start 0xE0A1).writeV 0 0xFF) (fun t => t.run == .faulted (.keyIndexOutOfRange 0xFF)) = true := by
  decide +kernel
/-- T-07-1. -/
theorem test_ldVxDT :
    after ((startWith { quiet with tick := true } 0xF307).writeDT 5) (fun t => t.readV 3 == 5 && t.DT == 4) = true := by
  decide +kernel
/-- K-WAIT-1. -/
theorem test_ldVxK :
    after (startWith { quiet with wait := .key 7 } 0xF50A)
      (fun t => t.readV 5 == 7 && t.pc == 0x202 && t.run == .running) = true := by decide +kernel
/-- K-WAIT-2 and K-WAIT-4: nothing but the run state changes. -/
theorem test_ldVxK_suspends :
    (after (startWith { quiet with tick := true } 0xF50A |>.writeDT 5)
      (fun t => t.run == .awaitingKey && t.pc == 0x200 && t.DT == 5)) &&
    (after (startWith { quiet with wait := .abort, tick := true } 0xF50A |>.writeDT 5)
      (fun t => t.run == .halted && t.pc == 0x200 && t.DT == 5 && t.readV 5 == 0)) = true := by decide +kernel
/-- T-15-2. -/
theorem test_ldDTVx :
    after ((startWith { quiet with tick := true } 0xF215).writeV 2 0x3C) (fun t => t.DT == 0x3B) = true := by
  decide +kernel
/-- T-18-1. -/
theorem test_ldSTVx :
    after ((startWith { quiet with tick := true } 0xF218).writeV 2 0x10) (fun t => t.ST == 0x0F) = true := by
  decide +kernel

/-! ## The cycle -/

/-- E-FETCH-1 and E-FETCH-3. -/
theorem test_fetch_bounds :
    (after ((start 0).writePc 0xFFF) (fun t => t.run == .faulted (.outOfBounds 0x1000))) &&
    (after ((start 0).writePc 0x1010) (fun t => t.run == .faulted (.outOfBounds 0x1010))) = true := by decide +kernel
/-- E-ODD: an odd pc fetches. -/
theorem test_odd_pc :
    after (((start 0).writePc 0x201).withFetchWord 16 0x6007) (fun t => t.readV 0 == 7 && t.pc == 0x203) = true := by
  decide +kernel
/-- E-ILL-4, and T-FAULT: a failing cycle does not tick. -/
theorem test_illegal_word_fails :
    after ((startWith { quiet with tick := true } 0x5121).writeDT 3)
      (fun t => t.run == .faulted (.unknownOpcode 0x5121) && t.DT == 3 && t.pc == 0x200) = true := by decide +kernel
/-- T-QUIT: a quit lets steps 6 and 7 complete. -/
theorem test_quit :
    after ((startWith { quiet with quit := true, tick := true } 0x6000).writeDT 3 |>.writeST 2)
      (fun t => t.pc == 0x202 && t.DT == 2 && t.ST == 1 && t.run == .halted) = true := by decide +kernel
/-- R69: an ended run has no next cycle. -/
theorem test_ended_runs :
    after ((start 0x6000).setRun .halted) (fun _ => true) = false ∧
    after ((start 0x6000).raise .stackOverflow) (fun _ => true) = false := by decide +kernel

/-! ## Witnesses: states and operands that meet the hypotheses of each statement -/

/-- EncodeAfterDecodeGivesBack. -/
theorem witness_decoded : decode 0xD125 = .ok (.drw 1 2 5) := by decide +kernel
/-- DecodeAcceptsExactlyTheOpcodeMap: both kinds of word. -/
theorem witness_legal_and_illegal : wordLegal 0xF065 = true ∧ wordLegal 0xF066 = false := by decide +kernel
/-- NoWordMatchesTwoRows. -/
theorem witness_row_matches :
    (⟨"Fx65", 0xF065, 0xF0FF⟩ : OpcodeRow) ∈ opcodeTable ∧
      (⟨"Fx65", 0xF065, 0xF0FF⟩ : OpcodeRow).matches 0xF365 = true := by decide +kernel
/-- StepRunsTheDecodedInstruction, CompletedCycleRunsItsSteps, PcOfTheNextCycle, DrawIsRenderedInItsCycle (a
cycle that does not draw). -/
theorem witness_live_decoded_running :
    ∃ t, (start 0x8124).live ∧ (Instr.addReg 1 2).wellFormed = true ∧
      fetchInstr (start 0x8124) = .ok (.addReg 1 2) ∧ exec (.addReg 1 2) (start 0x8124).beginCycle = .next t ∧
      t.run = .running ∧ failureOf (.addReg 1 2) (start 0x8124) = none ∧ answered (.addReg 1 2) (start 0x8124) :=
  ⟨_, .inl rfl, Laws.LegalWord.addReg 1 2, by decide +kernel, rfl, rfl, rfl, trivial⟩
/-- PcOfTheNextCycle where it asks for an answer. -/
theorem witness_answered :
    (startWith { quiet with wait := .key 7 } 0xF50A).live ∧
      fetchInstr (startWith { quiet with wait := .key 7 } 0xF50A) = .ok (.ldVxK 5) ∧
      answered (.ldVxK 5) (startWith { quiet with wait := .key 7 } 0xF50A) :=
  ⟨.inl rfl, by decide +kernel, 7, rfl⟩
/-- DrawIsRenderedInItsCycle: a cycle that draws, and one whose draw fails. -/
theorem witness_drawing_cycles :
    ∃ u v, (start 0xD015).live ∧ fetchInstr (start 0xD015) = .ok (.drw 0 1 5) ∧
      failureOf (.drw 0 1 5) (start 0xD015) = none ∧ step (start 0xD015) = .next u ∧
      failureOf (.drw 0 1 5) ((start 0xD015).writeI 0xFFD) = some (.outOfBounds 0x1000) ∧
      step ((start 0xD015).writeI 0xFFD) = .next v :=
  ⟨_, _, .inl rfl, by decide +kernel, by decide +kernel, rfl, by decide +kernel, rfl⟩
/-- FetchReadsTwoBytesOrFails, each clause at a boundary of its range. -/
theorem witness_fetch_clauses :
    (start 0).pc.toNat ≤ 0xFFE ∧ ((start 0).writePc 0xFFE).pc.toNat ≤ 0xFFE ∧
      ((start 0).writePc 0xFFF).pc.toNat = 0xFFF ∧ ((start 0).writePc 0x1000).pc.toNat > 0xFFF ∧
      ((start 0).writePc 0xFFF).live ∧ fetch ((start 0).writePc 0xFFF) = .error (.outOfBounds 0x1000) :=
  ⟨by decide +kernel, by decide +kernel, by decide +kernel, by decide +kernel, .inl rfl, by decide +kernel⟩
/-- IllegalWordStopsTheRun. -/
theorem witness_illegal_fetched :
    (start 0x5121).live ∧ fetch (start 0x5121) = .ok 0x5121 ∧ wordLegal 0x5121 = false :=
  ⟨.inl rfl, by decide +kernel, by decide +kernel⟩
/-- OnlyEndedRunsHaveNoNextCycle: a state of each kind. -/
theorem witness_run_states :
    State.reset.live ∧ (State.reset.setRun .awaitingKey).live ∧ (State.reset.setRun .halted).run = .halted ∧
      (State.reset.raise .stackOverflow).run = .faulted .stackOverflow :=
  ⟨.inl rfl, .inr rfl, rfl, rfl⟩
/-- FailingCycleLeavesTheState. -/
theorem witness_failing_step :
    ∃ t, step (start 0x00EE) = .next t ∧ t.run = .faulted .stackUnderflow :=
  ⟨_, rfl, by decide +kernel⟩
/-- EachInstructionRaisesItsFailureOnly: both clauses. -/
theorem witness_failure_or_none :
    State.reset.run = .running ∧ failureOf .ret State.reset = some .stackUnderflow ∧
      failureOf .cls State.reset = none := by decide +kernel
/-- ExecWritesOnlyItsParts, InputsReachOnlyTheirInstructions. -/
theorem witness_exec_next :
    ∃ t, State.reset.Mem.wf State.reset.font = true ∧ exec (.ldMemVx 2) State.reset = .next t ∧
      mayWriteReg (.ldMemVx 2) 2 = false ∧ mayStore (.ldMemVx 2) State.reset 3 = false ∧
      mayStore (.ldMemVx 2) State.reset 2 = true ∧ writesIndex (.ldMemVx 2) = false ∧
      (∀ x kk, Instr.ldMemVx 2 ≠ .rnd x kk) ∧ (∀ x, Instr.ldMemVx 2 ≠ .ldVxK x) :=
  ⟨_, rfl, rfl, rfl, rfl, rfl, rfl, (fun _ _ h => nomatch h), (fun _ h => nomatch h)⟩
/-- StepKeepsTheInvariant. -/
theorem witness_invariant_step :
    ∃ t, (start 0x6007).Inv ∧ step (start 0x6007) = .next t :=
  ⟨_, ⟨by decide +kernel, rfl, rfl, fun h => by cases h⟩, rfl⟩
/-- LoadWritesOnlyTheImage: a memory, and images at both ends of the range. -/
theorem witness_image_fits :
    State.reset.Mem.wf State.reset.font = true ∧ ([] : List Byte).length ≤ 3584 ∧
      (List.replicate 3584 (0 : Byte)).length ≤ 3584 :=
  ⟨rfl, Nat.zero_le _, by rw [List.length_replicate]⟩
/-- LoadFailuresPreventExecution. -/
theorem witness_image_too_large :
    (List.replicate 3585 (0 : Byte)).length > 3584 ∧ ∃ t, boot defaultFont (.bytes [0x12, 0x00]) = .ok t :=
  ⟨by rw [List.length_replicate]; decide, _, rfl⟩
/-- RetPopsThePc and CallPushesItsAddress: the stack at both ends. -/
theorem witness_stack_ends :
    State.reset.SP = 0 ∧ (State.reset.writeSP 16).SP.val = (15 : Fin 16).val + 1 ∧
      (State.reset.writeSP 16).SP = 16 ∧ (State.reset.writeSP 15).SP.val = (15 : Fin 16).val := by decide +kernel
/-- RetUndoesCall. -/
theorem witness_call_then_ret :
    ∃ t, State.reset.SP ≠ 16 ∧ exec (.call 0x300) State.reset = .next t ∧ t.SP = t.SP ∧ t.Stack = t.Stack :=
  ⟨_, by decide +kernel, rfl, rfl, rfl⟩
/-- JpSetsThePc: the target that cannot be fetched. -/
theorem witness_last_target : (0xFFF : Addr12) = 0xFFF ∧ exec (.jp 0xFFF) State.reset = .next (State.reset.jumpTo 0xFFF) :=
  ⟨rfl, rfl⟩
/-- The skip statements: a condition that holds and one that does not, and pc = 0xFFC. -/
theorem witness_skip_conditions :
    State.reset.readV 3 = 0 ∧ State.reset.readV 3 ≠ 1 ∧ (State.reset.writePc 0xFFC).pc = 0xFFC ∧
      State.reset.readV 1 = State.reset.readV 2 ∧ (State.reset.writeV 1 7).readV 1 ≠ (State.reset.writeV 1 7).readV 2 ∧
      (15 : Nibble) ≠ 0 := by decide +kernel
/-- SkipIfEqualImmediate and SkipIfNotEqualImmediate: a taken skip at 0xFFC. -/
theorem witness_skips_at_the_end :
    (((start 0).writePc 0xFFC).withFetchWord 16 0x3300).live ∧
      fetchInstr (((start 0).writePc 0xFFC).withFetchWord 16 0x3300) = .ok (.seImm 3 0) ∧
      (((start 0).writePc 0xFFC).withFetchWord 16 0x3300).readV 3 = 0 ∧
      fetchInstr (((start 0).writePc 0xFFC).withFetchWord 16 0x4301) = .ok (.sneImm 3 1) ∧
      (((start 0).writePc 0xFFC).withFetchWord 16 0x4301).readV 3 ≠ 1 ∧
      (((start 0).writePc 0xFFC).withFetchWord 16 0x4301).pc = 0xFFC :=
  ⟨.inl rfl, by decide +kernel, by decide +kernel, by decide +kernel, by decide +kernel, by decide +kernel⟩
/-- ExecWritesOnlyItsParts, a CALL: the slot it may write and one it may not. -/
theorem witness_call_slots :
    ∃ t, State.reset.Mem.wf State.reset.font = true ∧ exec (.call 0x300) State.reset = .next t ∧
      mayWriteSlot (.call 0x300) State.reset 0 = true ∧ mayWriteSlot (.call 0x300) State.reset 1 = false :=
  ⟨_, rfl, rfl, rfl, rfl⟩
/-- AddSetsCarry, SubSetsNotBorrow, SubnSetsNotBorrow, ShrSetsLowBit, ShlSetsHighBit, and the statements with
a register other than the destination. -/
theorem witness_registers : (0 : Reg) ≠ VF ∧ (14 : Reg) ≠ VF ∧ (1 : Reg) ≠ 0 := by decide
/-- RandomByteUnderMask: the mask 0. -/
theorem witness_zero_mask : (0 : Byte) = 0 ∧ State.reset.Mem.wf State.reset.font = true := ⟨rfl, rfl⟩
/-- StoreBcdDigits: canonical memory, I at both sides of the bound, and a pc that fetches the digits. -/
theorem witness_bcd_bounds :
    (State.reset.writeI 0xFFD).Mem.wf (State.reset.writeI 0xFFD).font = true ∧
      (State.reset.writeI 0xFFD).I.toNat + 2 ≤ 0xFFF ∧ (State.reset.writeI 0xFFE).I.toNat + 2 > 0xFFF ∧
      (0xFFD : Word).toNat = (State.reset.writeI 0xFFD).I.toNat := by decide +kernel
/-- StoreRegisters and LoadRegisters: I at both sides of the bound. -/
theorem witness_register_range_bounds :
    (State.reset.writeI 0xFF0).Mem.wf (State.reset.writeI 0xFF0).font = true ∧
      (State.reset.writeI 0xFF0).I.toNat + (15 : Reg).val ≤ 0xFFF ∧
      (State.reset.writeI 0xFF1).I.toNat + (15 : Reg).val > 0xFFF ∧ (15 : Reg) ≤ 15 ∧ (2 : Reg) < 3 := by
  decide +kernel
/-- DrawFromMemory: I at both sides of the bound, and n = 0 beyond memory. -/
theorem witness_sprite_bounds :
    (0 < (15 : Fin 16).val ∧ (State.reset.writeI 0xFF2).I.toNat + (15 : Fin 16).val - 1 > 0xFFF) ∧
      (State.reset.writeI 0xFF1).I.toNat + (15 : Fin 16).val - 1 ≤ 0xFFF ∧ (0 : Fin 16).val = 0 := by decide +kernel
/-- DrawSpritePixelByPixel and DrawTwiceRestoresTheScreen: sprites of both extreme heights, a covered pixel
that wraps, and one that is not covered. -/
theorem witness_sprites :
    ([] : List Byte).length ≤ 15 ∧ (List.replicate 15 (0xFF : Byte)).length ≤ 15 ∧
      (0 : Fin 32).val = ((0x1F : Byte).toNat + 1) % 32 ∧ (5 : Fin 64).val = ((0x3E : Byte).toNat + 7) % 64 ∧
      (∀ i j, i < 2 → j < 8 → ¬ ((1 : Fin 32).val = ((0x1F : Byte).toNat + i) % 32 ∧
        (5 : Fin 64).val = ((0x3E : Byte).toNat + j) % 64)) := by
  refine ⟨by decide, by decide, by decide, by decide, ?_⟩
  intro i j hi _ h
  simp at h
  omega
/-- SkipOnKeySnapshot: a key up, a key down, and an index out of range, at the ends of the range. -/
theorem witness_keys :
    (State.reset.writeV 0 15).readV 0 = 15 ∧ ((State.reset.writeV 0 15).readV 0).toNat = (15 : Key).val ∧
      State.reset.keys[(15 : Key).val] = false ∧ (Vector.replicate 16 true)[(15 : Key).val] = true ∧
      ((State.reset.writeV 0 16).readV 0).toNat > 15 := by decide +kernel
/-- ReadPrecedesTheDecay and SetTimerDecaysInItsCycle, with and without a tick. -/
theorem witness_timer_cycles :
    (start 0xF307).live ∧ fetchInstr (start 0xF307) = .ok (.ldVxDT 3) ∧ (start 0xF307).input.tick = false ∧
      (startWith { quiet with tick := true } 0xF215).input.tick = true ∧
      fetchInstr (startWith { quiet with tick := true } 0xF215) = .ok (.ldDTVx 2) ∧
      fetchInstr (startWith { quiet with tick := true } 0xF218) = .ok (.ldSTVx 2) :=
  ⟨.inl rfl, by decide +kernel, rfl, rfl, by decide +kernel, by decide +kernel⟩
/-- KeyWaitAnswers and KeyWaitSuspendsTheCycle: each answer, a key with and without a quit. -/
theorem witness_wait_answers :
    (start 0xF50A).live ∧ fetchInstr (start 0xF50A) = .ok (.ldVxK 5) ∧ (start 0xF50A).input.wait = .pending ∧
      (startWith { quiet with wait := .abort } 0xF50A).input.wait = .abort ∧
      (startWith { quiet with wait := .key 15 } 0xF50A).input.wait = .key 15 ∧
      (startWith { quiet with wait := .key 15 } 0xF50A).input.quit = false ∧
      (startWith { quiet with wait := .key 0, quit := true } 0xF50A).input.wait = .key 0 ∧
      (startWith { quiet with wait := .key 0, quit := true } 0xF50A).input.quit = true :=
  ⟨.inl rfl, by decide +kernel, rfl, rfl, rfl, rfl, rfl, rfl⟩

end Sys2Proof.Tests
end

section
/-! SUPPORT. What the execute step can do, said once for all instructions (40_cycle.md rule R72): it raises
the failure of R126's table, or it completes with one of a few kinds of write. The frames, the invariant and
pc of the next cycle are read off from these kinds, not from the 34 meanings. -/

namespace Sys2Proof.Machine

/-! ## The kinds of write of an execute step that completes -/

/-- The state after an execute step that leaves pc, the jump flag and the stack alone. Each kind of write
carries the entry of R17's table that allows it. -/
inductive DataEffect (i : Instr) (s : State) : State → Prop
  | register (x : Reg) (b : Byte) (hx : mayWriteReg i x = true) : DataEffect i s (s.writeV x b)
  | flagged (x : Reg) (b : Byte) (f : Bool) (hx : mayWriteReg i x = true) (hf : mayWriteReg i VF = true) :
      DataEffect i s (s.writeFlagged x b f)
  | registers (bytes : List Byte) (h : ∀ r : Reg, r.val < bytes.length → mayWriteReg i r = true) :
      DataEffect i s (s.writeRegs bytes)
  | index (w : Word) (h : writesIndex i = true) : DataEffect i s (s.writeI w)
  | store (bytes : List Byte) (hin : s.I.toNat + bytes.length ≤ Config.memSize)
      (h : ∀ a, s.I.toNat ≤ a → a < s.I.toNat + bytes.length → mayStore i s a = true) :
      DataEffect i s (s.writeMem (s.Mem.setRange s.font s.I.toNat bytes))
  | screen (fb : Screen) (h : draws i = true) : DataEffect i s (s.show fb)
  | sprite (fb : Screen) (f : Bool) (h : draws i = true) (hf : mayWriteReg i VF = true) :
      DataEffect i s ((s.show fb).writeCollision f)
  | delayTimer (x : Reg) (b : Byte) (hi : i = .ldDTVx x) : DataEffect i s (s.writeDT b)
  | soundTimer (x : Reg) (b : Byte) (hi : i = .ldSTVx x) : DataEffect i s (s.writeST b)
  | keyAnswered (x : Reg) (b : Byte) (hi : i = .ldVxK x) : DataEffect i s ((s.writeV x b).setRun .running)
  | keyPending (x : Reg) (hi : i = .ldVxK x) (hw : s.input.wait = .pending) :
      DataEffect i s (s.setRun .awaitingKey)
  | keyAborted (x : Reg) (hi : i = .ldVxK x) (hw : s.input.wait = .abort) :
      DataEffect i s (s.setRun .halted)

/-- The state after an execute step that completes: a write of data, a skip, a jump, a call or a return. -/
inductive Effect (i : Instr) (s : State) : State → Prop
  | data {t : State} (hpc : writesPc i = false) (h : DataEffect i s t) : Effect i s t
  | skip (c : Bool) (h : skipCondition i s = some c) : Effect i s (s.skipIf c)
  | jump (a : Word) (hj : jumps i = true) (ha : nextPcOf i s = a) : Effect i s (s.jumpTo a)
  | call (nnn : Addr12) (hi : i = .call nnn) (k : Fin 16) (hk : s.SP.val = k.val) :
      Effect i s (((s.writeSlot k s.pc).writeSP ⟨k.val + 1, by omega⟩).jumpTo (nnn.setWidth 16))
  | ret (hi : i = .ret) (k : Fin 16) (hk : s.SP.val = k.val + 1) :
      Effect i s ((s.writeSP ⟨k.val, by omega⟩).writePc s.Stack[k.val])

theorem failsIf_of {p : Prop} [Decidable p] {kind : FailureKind} (h : p) :
    failsIf (decide p) kind = some kind := by
  simp [failsIf, h]

theorem failsIf_of_not {p : Prop} [Decidable p] {kind : FailureKind} (h : ¬ p) :
    failsIf (decide p) kind = none := by
  simp [failsIf, h]

/-- Everything an execute step can do: raise the failure of R126's table and nothing else, or, where the
table gives none, complete. -/
def ExecOutcome (i : Instr) (s : State) : Prop :=
  (∃ k, failureOf i s = some k ∧ exec i s = .next (s.raise k)) ∨
  (failureOf i s = none ∧ ∃ t, exec i s = .next t ∧ Effect i s t)

section
variable {i : Instr} {s t : State}

theorem ExecOutcome.raises {k : FailureKind} (hf : failureOf i s = some k)
    (he : exec i s = .next (s.raise k)) : ExecOutcome i s :=
  .inl ⟨k, hf, he⟩

theorem ExecOutcome.completes (hf : failureOf i s = none) (he : exec i s = .next t) (h : Effect i s t) :
    ExecOutcome i s :=
  .inr ⟨hf, t, he, h⟩

theorem ExecOutcome.data (hf : failureOf i s = none) (hpc : writesPc i = false) (he : exec i s = .next t)
    (h : DataEffect i s t) : ExecOutcome i s :=
  .completes hf he (.data hpc h)

/-- A store of a range by `Fx33` or `Fx55`, whose failure of R126's table is that its last address, I + n, is
above 0xFFF. -/
theorem ExecOutcome.stores (n : Nat) {bytes : List Byte} (hlen : bytes.length = n + 1)
    (hpc : writesPc i = false) (he : exec i s = s.settle (s.storeRange s.I.toNat bytes))
    (hf : failureOf i s =
      failsIf (decide (s.I.toNat + n > 0xFFF)) (.outOfBounds (max s.I.toNat 0x1000)))
    (hs : ∀ a, s.I.toNat ≤ a → a < s.I.toNat + bytes.length → mayStore i s a = true) :
    ExecOutcome i s := by
  have hsize : Config.memSize = 0x1000 := rfl
  obtain ⟨hin, hst⟩ | ⟨_, hout, hst⟩ := s.storeRange_cases s.I.toNat bytes
  · exact .data (hf.trans (failsIf_of_not (by omega))) hpc (he.trans (by rw [hst, State.settle_ok]))
      (.store bytes (by omega) hs)
  · exact .raises (hf.trans (failsIf_of (by omega))) (he.trans (by rw [hst, State.settle_error, hsize]))

end

/-! ## The instructions that can fail -/

section
variable {s t : State} {a : Word} {k : FailureKind} {bytes : List Byte} {x y : Reg} {n : Fin 16}

theorem exec_ret_of_pop (h : s.pop = .ok (a, t)) : exec .ret s = .next (t.writePc a) := by
  simp [exec, execRet, h]

theorem exec_ret_of_pop_error (h : s.pop = .error k) : exec .ret s = .next (s.raise k) := by
  simp [exec, execRet, h]

theorem exec_call_of_push {nnn : Addr12} (h : s.push s.pc = .ok t) :
    exec (.call nnn) s = .next (t.jumpTo (nnn.setWidth 16)) := by
  simp [exec, execCall, h, zext16]

theorem exec_call_of_push_error {nnn : Addr12} (h : s.push s.pc = .error k) :
    exec (.call nnn) s = .next (s.raise k) := by
  simp [exec, execCall, h]

theorem exec_drw_of_bytes (h : spriteBytes s n = .ok bytes) : exec (.drw x y n) s =
    .next ((s.show (drawSprite s.FB (s.readV x) (s.readV y) bytes).fb).writeCollision
      (drawSprite s.FB (s.readV x) (s.readV y) bytes).collision) := by
  simp [exec, execDrw, h]

theorem exec_drw_of_error (h : spriteBytes s n = .error k) : exec (.drw x y n) s = .next (s.raise k) := by
  simp [exec, execDrw, h]

theorem exec_ldVxMem_of_bytes (h : s.readRange s.I.toNat (x.val + 1) = .ok bytes) :
    exec (.ldVxMem x) s = .next (s.writeRegs bytes) := by
  simp [exec, execLdVxMem, h]

theorem exec_ldVxMem_of_error (h : s.readRange s.I.toNat (x.val + 1) = .error k) :
    exec (.ldVxMem x) s = .next (s.raise k) := by
  simp [exec, execLdVxMem, h]

theorem exec_skp_of_key {q : Key} (h : keyIndex s x = .ok q) :
    exec (.skp x) s = .next (s.skipIf (s.keyDown q)) := by
  simp [exec, execSkp, h]

theorem exec_skp_of_error (h : keyIndex s x = .error k) : exec (.skp x) s = .next (s.raise k) := by
  simp [exec, execSkp, h]

theorem exec_sknp_of_key {q : Key} (h : keyIndex s x = .ok q) :
    exec (.sknp x) s = .next (s.skipIf (!s.keyDown q)) := by
  simp [exec, execSknp, h]

theorem exec_sknp_of_error (h : keyIndex s x = .error k) : exec (.sknp x) s = .next (s.raise k) := by
  simp [exec, execSknp, h]

end

theorem execOutcome_ret (s : State) : ExecOutcome .ret s := by
  obtain ⟨h0, hp⟩ | ⟨k, hk, hp⟩ := s.pop_cases
  · exact .raises (failsIf_of h0) (exec_ret_of_pop_error hp)
  · have hne : s.SP ≠ 0 := fun h => by simp [h] at hk
    exact .completes (failsIf_of_not hne) (exec_ret_of_pop hp) (.ret rfl k hk)

theorem execOutcome_call (nnn : Addr12) (s : State) : ExecOutcome (.call nnn) s := by
  obtain ⟨h16, hp⟩ | ⟨k, hk, hp⟩ := s.push_cases s.pc
  · exact .raises (failsIf_of h16) (exec_call_of_push_error hp)
  · have hne : s.SP ≠ 16 := fun h => by
      have h16 : s.SP.val = 16 := congrArg Fin.val h
      omega
    exact .completes (failsIf_of_not hne) (exec_call_of_push hp) (.call nnn rfl k hk)

theorem execOutcome_drw (x y : Reg) (n : Fin 16) (s : State) : ExecOutcome (.drw x y n) s := by
  have hsize : Config.memSize = 0x1000 := rfl
  obtain ⟨hin, hr⟩ | ⟨_, hout, hr⟩ := s.readRange_cases s.I.toNat n.val
  · exact .data (failsIf_of_not (by omega)) rfl (exec_drw_of_bytes hr) (.sprite _ _ rfl rfl)
  · exact .raises (failsIf_of (by omega)) (exec_drw_of_error hr)

theorem execOutcome_ldB (x : Reg) (s : State) : ExecOutcome (.ldB x) s :=
  .stores 2 (bcdDigits_length _) rfl rfl rfl fun a hl hu => by
    rw [bcdDigits_length] at hu
    exact decide_eq_true ⟨hl, by omega⟩

theorem execOutcome_ldMemVx (x : Reg) (s : State) : ExecOutcome (.ldMemVx x) s :=
  .stores x.val (regsThrough_length s x) rfl rfl rfl fun a hl hu => by
    rw [regsThrough_length] at hu
    exact decide_eq_true ⟨hl, by omega⟩

theorem execOutcome_ldVxMem (x : Reg) (s : State) : ExecOutcome (.ldVxMem x) s := by
  have hsize : Config.memSize = 0x1000 := rfl
  obtain ⟨hin, hr⟩ | ⟨_, hout, hr⟩ := s.readRange_cases s.I.toNat (x.val + 1)
  · refine .data (failsIf_of_not (by omega)) rfl (exec_ldVxMem_of_bytes hr) (.registers _ fun r h => ?_)
    rw [List.length_map, List.length_range] at h
    exact decide_eq_true (by omega)
  · exact .raises (failsIf_of (by omega)) (exec_ldVxMem_of_error hr)

/-- Everything the check of a key index can do; an index in range is read from the snapshot (R140). -/
theorem keyIndex_cases (s : State) (x : Reg) :
    ((s.readV x).toNat ≤ 15 ∧ ∃ k, keyIndex s x = .ok k ∧ s.keyDown k = keyDownAt s x) ∨
    ((s.readV x).toNat > 15 ∧ keyIndex s x = .error (.keyIndexOutOfRange (s.readV x))) := by
  by_cases h : (s.readV x).toNat < 16
  · exact .inl ⟨by omega, ⟨_, h⟩, by simp [keyIndex, h], by simp [State.keyDown, keyDownAt, h]⟩
  · exact .inr ⟨by omega, by simp [keyIndex, h]⟩

theorem execOutcome_skp (x : Reg) (s : State) : ExecOutcome (.skp x) s := by
  obtain ⟨hin, q, hq, hd⟩ | ⟨hout, hq⟩ := keyIndex_cases s x
  · exact .completes (failsIf_of_not (by omega)) (exec_skp_of_key hq) (.skip _ (congrArg some hd.symm))
  · exact .raises (failsIf_of hout) (exec_skp_of_error hq)

theorem execOutcome_sknp (x : Reg) (s : State) : ExecOutcome (.sknp x) s := by
  obtain ⟨hin, q, hq, hd⟩ | ⟨hout, hq⟩ := keyIndex_cases s x
  · exact .completes (failsIf_of_not (by omega)) (exec_sknp_of_key hq)
      (.skip _ (congrArg (fun down => some (!down)) hd.symm))
  · exact .raises (failsIf_of hout) (exec_sknp_of_error hq)

/-! ## The key wait, and all instructions -/

theorem execOutcome_ldVxK (x : Reg) (s : State) : ExecOutcome (.ldVxK x) s := by
  cases hw : s.input.wait with
  | key k => exact .data rfl rfl (by simp only [exec, execLdVxK, hw]) (.keyAnswered x (keyByte k) rfl)
  | pending => exact .data rfl rfl (by simp only [exec, execLdVxK, hw]) (.keyPending x rfl hw)
  | abort => exact .data rfl rfl (by simp only [exec, execLdVxK, hw]) (.keyAborted x rfl hw)

/-- Everything an execute step can do, whatever the instruction. -/
theorem execOutcome (i : Instr) (s : State) : ExecOutcome i s := by
  cases i with
  | ret => exact execOutcome_ret s
  | call nnn => exact execOutcome_call nnn s
  | drw x y n => exact execOutcome_drw x y n s
  | skp x => exact execOutcome_skp x s
  | sknp x => exact execOutcome_sknp x s
  | ldVxK x => exact execOutcome_ldVxK x s
  | ldB x => exact execOutcome_ldB x s
  | ldMemVx x => exact execOutcome_ldMemVx x s
  | ldVxMem x => exact execOutcome_ldVxMem x s
  | cls => exact .data rfl rfl rfl (.screen _ rfl)
  | jp nnn => exact .completes rfl rfl (.jump _ rfl rfl)
  | jpV0 nnn => exact .completes rfl rfl (.jump _ rfl rfl)
  | seImm x kk => exact .completes rfl rfl (.skip _ rfl)
  | sneImm x kk => exact .completes rfl rfl (.skip _ rfl)
  | seReg x y => exact .completes rfl rfl (.skip _ rfl)
  | sneReg x y => exact .completes rfl rfl (.skip _ rfl)
  | ldImm x kk => exact .data rfl rfl rfl (.register x _ (beq_self_eq_true x))
  | addImm x kk => exact .data rfl rfl rfl (.register x _ (beq_self_eq_true x))
  | ldReg x y => exact .data rfl rfl rfl (.register x _ (beq_self_eq_true x))
  | orReg x y => exact .data rfl rfl rfl (.register x _ (beq_self_eq_true x))
  | andReg x y => exact .data rfl rfl rfl (.register x _ (beq_self_eq_true x))
  | xorReg x y => exact .data rfl rfl rfl (.register x _ (beq_self_eq_true x))
  | rnd x kk => exact .data rfl rfl rfl (.register x _ (beq_self_eq_true x))
  | ldVxDT x => exact .data rfl rfl rfl (.register x _ (beq_self_eq_true x))
  | addReg x y => exact .data rfl rfl rfl (.flagged x _ _ (by simp [mayWriteReg]) (by simp [mayWriteReg]))
  | sub x y => exact .data rfl rfl rfl (.flagged x _ _ (by simp [mayWriteReg]) (by simp [mayWriteReg]))
  | shr x y => exact .data rfl rfl rfl (.flagged x _ _ (by simp [mayWriteReg]) (by simp [mayWriteReg]))
  | subn x y => exact .data rfl rfl rfl (.flagged x _ _ (by simp [mayWriteReg]) (by simp [mayWriteReg]))
  | shl x y => exact .data rfl rfl rfl (.flagged x _ _ (by simp [mayWriteReg]) (by simp [mayWriteReg]))
  | ldI nnn => exact .data rfl rfl rfl (.index _ rfl)
  | addI x => exact .data rfl rfl rfl (.index _ rfl)
  | ldF x => exact .data rfl rfl rfl (.index _ rfl)
  | ldDTVx x => exact .data rfl rfl rfl (.delayTimer x _ rfl)
  | ldSTVx x => exact .data rfl rfl rfl (.soundTimer x _ rfl)

/-- An execute step whose failure condition does not hold completes. -/
theorem exec_completes {i : Instr} {s : State} (hf : failureOf i s = none) :
    ∃ t, exec i s = .next t ∧ Effect i s t := by
  obtain ⟨k, hk, _⟩ | ⟨_, h⟩ := execOutcome i s
  · rw [hf] at hk
    cases hk
  · exact h

/-- A next state of the execute step is the failure of R126's table or the state of a step that completes. -/
theorem exec_next_cases {i : Instr} {s t : State} (h : exec i s = .next t) :
    (∃ k, failureOf i s = some k ∧ t = s.raise k) ∨ (failureOf i s = none ∧ Effect i s t) := by
  obtain ⟨k, hf, he⟩ | ⟨hf, u, he, hu⟩ := execOutcome i s <;> rw [he] at h <;> cases h
  · exact .inl ⟨k, hf, rfl⟩
  · exact .inr ⟨hf, hu⟩

end Sys2Proof.Machine
end

section
/-! SUPPORT. Frames: what each kind of write leaves as it was. Then O14, R17's table of writes. -/

namespace Sys2Proof.Machine

section
variable {i : Instr} {s t : State}

/-! ## What a write of data never touches -/

theorem DataEffect.pc_eq (h : DataEffect i s t) : t.pc = s.pc := by
  cases h <;> simp

theorem DataEffect.jump_eq (h : DataEffect i s t) : t.jump = s.jump := by
  cases h <;> simp

theorem DataEffect.SP_eq (h : DataEffect i s t) : t.SP = s.SP := by
  cases h <;> simp

theorem DataEffect.Stack_eq (h : DataEffect i s t) : t.Stack = s.Stack := by
  cases h <;> simp

/-! ## What a step that completes leaves as it was -/

theorem Effect.readV_eq (h : Effect i s t) {r : Reg} (hr : mayWriteReg i r = false) :
    t.readV r = s.readV r := by
  have hne : ∀ {x : Reg}, mayWriteReg i x = true → r ≠ x := fun hx e => by simp [← e, hr] at hx
  cases h with
  | data _ h =>
    cases h with
    | register x b hx => simp [hne hx]
    | flagged x b f hx hf => simp [hne hx, hne hf]
    | registers bytes hb =>
      have hout : ¬ r.val < bytes.length := fun hlt => hne (hb r hlt) rfl
      rw [State.readV_writeRegs, dif_neg hout]
    | sprite fb f _ hf => simp [hne hf]
    | keyAnswered x b hi =>
      subst hi
      simp [hne (beq_self_eq_true x)]
    | index | store | screen | delayTimer | soundTimer | keyPending | keyAborted => simp
  | skip | jump | call | ret => simp

/-- A store leaves a byte outside its range, memory being canonical; no other effect writes memory. -/
theorem Effect.readByte_eq (h : Effect i s t) (hm : s.Mem.wf s.font = true) {a : Nat}
    (ha : mayStore i s a = false) : t.readByte a = s.readByte a := by
  cases h with
  | data _ h =>
    cases h with
    | store bytes hin hs =>
      have hout : ¬ (s.I.toNat ≤ a ∧ a < s.I.toNat + bytes.length) := fun ⟨hl, hu⟩ => by
        simp [hs a hl hu] at ha
      exact (Memory.get_setRange hm s.I.toNat a bytes hin).trans (dif_neg hout)
    | register | flagged | registers | index | screen | sprite | delayTimer | soundTimer
    | keyAnswered | keyPending | keyAborted => simp
  | skip | jump | call | ret => simp

theorem Effect.I_eq (h : Effect i s t) (hi : writesIndex i = false) : t.I = s.I := by
  cases h with
  | data _ h => cases h <;> simp_all
  | skip | jump | call | ret => simp

theorem writesPc_of_jumps (h : jumps i = true) : writesPc i = true := by
  cases i <;> simp_all [jumps, writesPc]

theorem writesPc_of_skipCondition {c : Bool} (h : skipCondition i s = some c) : writesPc i = true := by
  cases i <;> simp_all [skipCondition, writesPc]

theorem Effect.pc_eq (h : Effect i s t) (hi : writesPc i = false) : t.pc = s.pc := by
  cases h with
  | data _ h => exact h.pc_eq
  | skip c hc => simp [writesPc_of_skipCondition hc] at hi
  | jump a hj => simp [writesPc_of_jumps hj] at hi
  | call nnn e => simp [e, writesPc] at hi
  | ret e => simp [e, writesPc] at hi

theorem Effect.screen_eq (h : Effect i s t) (hi : draws i = false) :
    t.FB = s.FB ∧ t.redraw = s.redraw := by
  cases h with
  | data _ h => cases h <;> simp_all
  | skip | jump | call | ret => simp

theorem Effect.jump_eq (h : Effect i s t) (hi : jumps i = false) : t.jump = s.jump := by
  cases h with
  | data _ h => exact h.jump_eq
  | skip | ret => simp
  | jump a hj => simp [hi] at hj
  | call nnn e => simp [e, jumps] at hi

theorem Effect.slot_eq (h : Effect i s t) {k : Fin 16} (hk : mayWriteSlot i s k = false) :
    t.Stack[k.val] = s.Stack[k.val] := by
  cases h with
  | data _ h => simp [h.Stack_eq]
  | call nnn e j hj =>
    subst e
    have hne : ¬ j.val = k.val := fun hjk => by simp [mayWriteSlot, hj, hjk] at hk
    simp [hne]
  | skip | jump | ret => simp

theorem Effect.SP_eq (h : Effect i s t) (hc : ∀ nnn, i ≠ .call nnn) (hr : i ≠ .ret) : t.SP = s.SP := by
  cases h with
  | data _ h => exact h.SP_eq
  | skip | jump => simp
  | call nnn e => exact absurd e (hc nnn)
  | ret e => exact absurd e hr

theorem Effect.DT_eq (h : Effect i s t) (hi : ∀ x, i ≠ .ldDTVx x) : t.DT = s.DT := by
  cases h with
  | data _ h => cases h <;> simp_all
  | skip | jump | call | ret => simp

theorem Effect.ST_eq (h : Effect i s t) (hi : ∀ x, i ≠ .ldSTVx x) : t.ST = s.ST := by
  cases h with
  | data _ h => cases h <;> simp_all
  | skip | jump | call | ret => simp

/-- The key snapshot, the environment's ports and the configuration are not for an instruction to write. -/
theorem Effect.ports_eq (h : Effect i s t) : t.keys = s.keys ∧ t.frames = s.frames ∧
    t.inputs = s.inputs ∧ t.used = s.used ∧ t.font = s.font := by
  cases h with
  | data _ h => cases h <;> simp
  | skip | jump | call | ret => simp

end

/-- Settles O14: a failing step writes nothing but the run state, and a completing one is one of the kinds of
write, whose frames the lemmas above say. -/
theorem execWritesOnlyItsParts : Obligations.ExecWritesOnlyItsParts := by
  intro i s t hm he
  obtain ⟨k, _, rfl⟩ | ⟨_, h⟩ := exec_next_cases he
  · simp
  · exact ⟨fun _ => h.readV_eq, fun _ => h.readByte_eq hm, h.I_eq, h.pc_eq, h.screen_eq, h.jump_eq,
      fun _ => h.slot_eq, h.SP_eq, h.DT_eq, h.ST_eq, h.ports_eq⟩

end Sys2Proof.Machine
end

section
/-! SUPPORT. The whole cycle through the kinds of write: pc of the next cycle (O13) and the invariant of the
state (O16). -/

namespace Sys2Proof.Machine

section
variable {i : Instr} {s t : State}

/-! ## A cycle that completes -/

theorem Effect.run_eq (h : Effect i s t) (hi : ∀ x, i ≠ .ldVxK x) : t.run = s.run := by
  cases h with
  | data _ h => cases h <;> simp_all
  | skip | jump | call | ret => simp

/-- Only a key wait without a key leaves the run state other than `Running`. -/
theorem Effect.run_of_answered (h : Effect i s t) (hr : s.run = .running) (ha : answered i s) :
    t.run = .running := by
  cases h with
  | data _ h =>
    cases h with
    | keyPending x hi hw | keyAborted x hi hw =>
      subst hi
      obtain ⟨k, hk⟩ := ha
      simp [hw] at hk
    | register | flagged | registers | index | store | screen | sprite | delayTimer | soundTimer
    | keyAnswered => simp [hr]
  | skip | jump | call | ret => simp [hr]

/-- The start of a cycle changes nothing that an instruction's failure depends on. -/
theorem failureOf_beginCycle (i : Instr) (s : State) : failureOf i s.beginCycle = failureOf i s := rfl

theorem answered_beginCycle (i : Instr) (s : State) : answered i s.beginCycle = answered i s := rfl

theorem nextPcOf_beginCycle (i : Instr) (s : State) : nextPcOf i s.beginCycle = nextPcOf i s := rfl

/-- A cycle whose instruction does not fail and whose key wait, if any, is answered runs steps 4 to 8. -/
theorem step_completes (hl : s.live) (hi : fetchInstr s = .ok i) (hf : failureOf i s = none)
    (ha : answered i s) :
    ∃ t, exec i s.beginCycle = .next t ∧ Effect i s.beginCycle t ∧ step s = .next t.complete := by
  rw [← failureOf_beginCycle] at hf
  rw [← answered_beginCycle] at ha
  obtain ⟨t, he, h⟩ := exec_completes hf
  have hrun : t.run = .running := h.run_of_answered (State.beginCycle_run s) ha
  exact ⟨t, he, h, by rw [step_of_exec_next hl hi he, endCycle_of_running hrun]⟩

/-! ## pc of the next cycle -/

theorem nextPcOf_of_not_writesPc (h : writesPc i = false) : nextPcOf i s = s.pc + 2 := by
  cases i <;> simp_all [writesPc, nextPcOf, skipCondition]

theorem nextPcOf_of_skipCondition {c : Bool} (h : skipCondition i s = some c) :
    nextPcOf i s = if c then s.pc + 4 else s.pc + 2 := by
  cases i <;> simp_all [nextPcOf, skipCondition]

/-- pc after step 6 of the cycle is the one of R19's list. -/
theorem Effect.advance_pc (h : Effect i s t) (hj : s.jump = false) :
    (if t.jump then t.pc else t.pc + 2) = nextPcOf i s := by
  cases h with
  | data hpc h => simp [h.pc_eq, h.jump_eq, hj, nextPcOf_of_not_writesPc hpc]
  | skip c hc => cases c <;> simp [hj, nextPcOf_of_skipCondition hc, BitVec.add_assoc]
  | jump a _ ha => simp [ha]
  | call nnn e => simp [e, nextPcOf]
  | ret e k hk => simp [e, nextPcOf, hj, hk]

/-! ## The invariant -/

/-- A completing execute step keeps memory canonical: a store stays inside memory. -/
theorem Effect.wf (h : Effect i s t) (hm : s.Mem.wf s.font = true) : t.Mem.wf t.font = true := by
  cases h with
  | data _ h =>
    cases h with
    | store bytes hin => exact Memory.wf_setRange bytes hin hm
    | register | flagged | registers | index | screen | sprite | delayTimer | soundTimer
    | keyAnswered | keyPending | keyAborted => simpa using hm
  | skip | jump | call | ret => simpa using hm

/-- An execute step keeps memory canonical, whether it raises or completes. -/
theorem exec_wf (h : exec i s = .next t) (hm : s.Mem.wf s.font = true) : t.Mem.wf t.font = true := by
  obtain ⟨k, _, rfl⟩ | ⟨_, h⟩ := exec_next_cases h
  · exact hm
  · exact h.wf hm

/-- Only `Fx0A` leaves a running state awaiting a key (R121). -/
theorem exec_awaiting (h : exec i s = .next t) (hr : s.run = .running) (ht : t.run = .awaitingKey) :
    ∃ x, i = .ldVxK x := by
  obtain ⟨k, _, rfl⟩ | ⟨_, h⟩ := exec_next_cases h
  · cases ht
  · by_contra hno
    have hrun : t.run = s.run := h.run_eq fun x hx => hno ⟨x, hx⟩
    simp [hrun, hr] at ht

/-- A state that is not awaiting a key meets the invariant as soon as memory is canonical and the flags of a
cycle are 0. -/
theorem State.Inv.of_not_awaiting (hm : s.Mem.wf s.font = true) (hj : s.jump = false)
    (hd : s.redraw = false) (hr : s.run ≠ .awaitingKey) : s.Inv :=
  ⟨hm, hj, hd, fun h => absurd h hr⟩

end

/-- Settles O13: the cycle completes, and step 6 leaves the pc of R19's list. -/
theorem pcOfTheNextCycle : Obligations.PcOfTheNextCycle := by
  intro s i hl hi hf ha
  obtain ⟨t, _, h, hstep⟩ := step_completes hl hi hf ha
  exact ⟨t.complete, hstep, by
    rw [State.complete_pc, h.advance_pc (State.beginCycle_jump s), nextPcOf_beginCycle]⟩

/-- Settles O16, by the four ends of a cycle. Only the wait leaves a state awaiting a key, and it leaves pc and
memory alone, so that the next fetch gives its `Fx0A` again. -/
theorem stepKeepsTheInvariant : Obligations.StepKeepsTheInvariant := by
  intro s u ⟨hm, hj, hd, _⟩ hstep
  refine step_keeps hstep (fun k => ?raised) ?halted (fun i t hi he ht => ?waiting) (fun i t _ he _ => ?done)
  case raised => exact .of_not_awaiting hm hj hd (by simp)
  case halted => exact .of_not_awaiting hm hj hd (by simp)
  case waiting =>
    obtain ⟨x, rfl⟩ := exec_awaiting he (State.beginCycle_run s) ht
    exact ⟨hm, hj, hd, fun _ => ⟨x, by simpa using hi⟩⟩
  case done =>
    have ht : t.Mem.wf t.font = true := exec_wf he (by simpa using hm)
    refine .of_not_awaiting (by simpa using ht) (by simp) (by simp) ?_
    rw [State.complete_run]
    split <;> simp

end Sys2Proof.Machine
end

section
/-! SUPPORT. Construction and the program load: O17, O19 and O20. -/

namespace Sys2Proof.Machine

/-! ## Construction -/

/-- Settles O17: construction lists no byte of memory, sets no flag and awaits no key. -/
theorem constructionMeetsTheInvariant : Obligations.ConstructionMeetsTheInvariant := fun _ =>
  .of_not_awaiting Memory.wf_nil rfl rfl nofun

/-- The font lies below 0x200 (R45), so that its bytes are what unlisted addresses read as. -/
theorem unlistedByte_font (font : Config.Font) (k : Fin 80) :
    unlistedByte font (font.base.val + k.val) = font.data[k.val] := by
  have hbase := font.base.isLt
  have hlow : ¬ Config.programBase ≤ font.base.val + k.val := by
    show ¬ 0x200 ≤ _
    omega
  simp [unlistedByte, fontByte, hlow]

theorem unlistedByte_of_outside_font {font : Config.Font} {a : Nat}
    (h : a < font.base.val ∨ font.base.val + 80 ≤ a) : unlistedByte font a = 0 := by
  have hout : ¬ (font.base.val ≤ a ∧ a < font.base.val + 80) := by omega
  simp [unlistedByte, fontByte, hout]

/-- Construction lists no byte: every address reads as unlisted. -/
theorem State.readByte_construct (font : Config.Font) (a : Nat) :
    (State.construct font).readByte a = unlistedByte font a := rfl

theorem State.readV_construct (font : Config.Font) (r : Reg) : (State.construct font).readV r = 0 := by
  simp [State.readV, State.construct]

theorem State.Stack_construct (font : Config.Font) (k : Fin 16) :
    (State.construct font).Stack[k.val] = 0 := by
  simp [State.construct]

theorem State.FB_construct (font : Config.Font) : (State.construct font).FB = Screen.blank := rfl

theorem State.keyDown_construct (font : Config.Font) (k : Key) :
    (State.construct font).keyDown k = false := by
  simp [State.keyDown, State.construct]

/-- Settles O19, component by component. -/
theorem constructionLeavesFontAndZeroes : Obligations.ConstructionLeavesFontAndZeroes := by
  intro font
  refine ⟨unlistedByte_font font, fun a ha => ?_, State.readV_construct font, State.Stack_construct font,
    fun row col => ?_, State.keyDown_construct font, rfl, rfl, rfl, rfl, rfl, rfl, rfl⟩
  · rw [State.readByte_construct, unlistedByte_of_outside_font ha]
  · rw [State.FB_construct, Screen.pixel_blank]

/-! ## The program load -/

theorem State.load_bytes {image : List Byte} (h : image.length ≤ 3584) (s : State) :
    s.load (.bytes image) = .ok (s.writeMem (s.Mem.setRange s.font 0x200 image)) :=
  if_pos (decide_eq_true h)

/-- What an image that fits leaves at every address, when memory was canonical. -/
theorem State.readByte_load {s : State} {image : List Byte} (hm : s.Mem.wf s.font = true)
    (h : image.length ≤ 3584) (a : Nat) :
    (s.writeMem (s.Mem.setRange s.font 0x200 image)).readByte a =
      if ha : 0x200 ≤ a ∧ a < 0x200 + image.length then image[a - 0x200]'(by omega) else s.readByte a := by
  have hsize : Config.memSize = 0x1000 := rfl
  exact Memory.get_setRange hm 0x200 a image (by omega)

/-- Settles O20: the load is one write of the image's bytes from 0x200 up. -/
theorem loadWritesOnlyTheImage : Obligations.LoadWritesOnlyTheImage := by
  intro s image hm hlen
  refine ⟨_, State.load_bytes hlen s, rfl, fun k hk => ?_, fun a ha => ?_⟩
  · rw [State.readByte_load hm hlen, dif_pos (by omega)]
    simp
  · rw [State.readByte_load hm hlen, dif_neg (by omega)]

end Sys2Proof.Machine
end

section
/-! SUPPORT. The encoding: the decode tree of R60, the encoder and the opcode map of R61 against one another
(O1 to O5), and the step on an illegal word (O8). -/

namespace Sys2Proof

/-! ## Decoding what the encoder gives -/

/-- The decode tree reads off the word of an instruction the fields its format put there. -/
theorem decode_encode (i : Instr) : decode (encode i) = .ok i := by
  cases i with
  | cls | ret => rfl
  | jp | call | ldI | jpV0 => simp [encode, decode]
  | seImm | sneImm | ldImm | addImm | rnd => simp [encode, decode]
  | seReg | sneReg | drw => simp [encode, decode]
  | ldReg | orReg | andReg | xorReg | addReg | sub | shr | subn | shl =>
    simp [encode, decode, decodeEight]
  | skp | sknp => simp [encode, decode, decodeE]
  | ldVxDT | ldVxK | ldDTVx | ldSTVx | addI | ldF | ldB | ldMemVx | ldVxMem =>
    simp [encode, decode, decodeF]

/-- Settles O2. -/
theorem decodeAfterEncodeGivesBack : Obligations.DecodeAfterEncodeGivesBack := decode_encode

/-! ## Encoding what the decoder gives -/

section
variable {w : Word} {i : Instr} {op n : Nibble} {kk : Byte}

theorem formatA_of_op (hop : fieldOp w = op) : formatA op (fieldNNN w) = w := by
  rw [← hop, formatA_fields]

theorem formatXK_of_op (hop : fieldOp w = op) : formatXK op (fieldX w) (fieldKK w) = w := by
  rw [← hop, formatXK_fields]

theorem formatXK_of_op_kk (hop : fieldOp w = op) (hkk : fieldKK w = kk) :
    formatXK op (fieldX w) kk = w := by
  rw [← hop, ← hkk, formatXK_fields]

theorem formatXYN_of_op_n (hop : fieldOp w = op) (hn : fieldN w = n) :
    formatXYN op (fieldX w) (fieldY w) n = w := by
  rw [← hop, ← hn, formatXYN_fields]

theorem encode_drw_of_op (hop : fieldOp w = 0xD) :
    encode (.drw (fieldX w) (fieldY w) (regOf (fieldN w))) = w :=
  formatXYN_of_op_n hop (bitsOf_regOf _).symm

theorem encode_of_decodeEight (hop : fieldOp w = 0x8) (h : decodeEight w = .ok i) : encode i = w := by
  unfold decodeEight at h
  split at h <;> cases h <;> exact formatXYN_of_op_n hop ‹_›

theorem encode_of_decodeE (hop : fieldOp w = 0xE) (h : decodeE w = .ok i) : encode i = w := by
  unfold decodeE at h
  split at h <;> cases h <;> exact formatXK_of_op_kk hop ‹_›

theorem encode_of_decodeF (hop : fieldOp w = 0xF) (h : decodeF w = .ok i) : encode i = w := by
  unfold decodeF at h
  split at h <;> cases h <;> exact formatXK_of_op_kk hop ‹_›

/-- In each case of the decode tree, in the order of `op`, the word is put together again from its fields. -/
theorem encode_of_decode (h : decode w = .ok i) : encode i = w := by
  unfold decode at h
  split at h
  next => split_ifs at h with hw hw <;> cases h <;> exact hw.symm
  next hop => cases h; exact formatA_of_op hop
  next hop => cases h; exact formatA_of_op hop
  next hop => cases h; exact formatXK_of_op hop
  next hop => cases h; exact formatXK_of_op hop
  next hop => split_ifs at h with hn; cases h; exact formatXYN_of_op_n hop hn
  next hop => cases h; exact formatXK_of_op hop
  next hop => cases h; exact formatXK_of_op hop
  next hop => exact encode_of_decodeEight hop h
  next hop => split_ifs at h with hn; cases h; exact formatXYN_of_op_n hop hn
  next hop => cases h; exact formatA_of_op hop
  next hop => cases h; exact formatA_of_op hop
  next hop => cases h; exact formatXK_of_op hop
  next hop => cases h; exact encode_drw_of_op hop
  next hop => exact encode_of_decodeE hop h
  next hop => exact encode_of_decodeF hop h
  next => cases h

/-- The decoder rejects a word as UnknownOpcode with the whole word, and in no other way (R62). -/
theorem decode_error {e : DecodeError} (h : decode w = .error e) : e = .unknownOpcode w := by
  unfold decode decodeEight decodeE decodeF at h
  (repeat' split at h) <;> cases h <;> rfl

end

/-- Settles O3. -/
theorem encodeAfterDecodeGivesBack : Obligations.EncodeAfterDecodeGivesBack := fun _ _ => encode_of_decode

/-! ## The opcode map -/

open Laws.LegalWord in
theorem wordLegal_encode : ∀ i : Instr, wordLegal (encode i) = true
  | .cls => cls | .ret => ret | .jp n => jp n | .call n => call n
  | .seImm x k => seImm x k | .sneImm x k => sneImm x k | .seReg x y => seReg x y
  | .ldImm x k => ldImm x k | .addImm x k => addImm x k
  | .ldReg x y => ldReg x y | .orReg x y => orReg x y | .andReg x y => andReg x y
  | .xorReg x y => xorReg x y | .addReg x y => addReg x y | .sub x y => sub x y
  | .shr x y => shr x y | .subn x y => subn x y | .shl x y => shl x y
  | .sneReg x y => sneReg x y | .ldI n => ldI n | .jpV0 n => jpV0 n | .rnd x k => rnd x k
  | .drw x y n => drw x y n | .skp x => skp x | .sknp x => sknp x
  | .ldVxDT x => ldVxDT x | .ldVxK x => ldVxK x | .ldDTVx x => ldDTVx x | .ldSTVx x => ldSTVx x
  | .addI x => addI x | .ldF x => ldF x | .ldB x => ldB x
  | .ldMemVx x => ldMemVx x | .ldVxMem x => ldVxMem x

section
variable {w : Word} {op n : Nibble} {kk : Byte}

/-! A match fixes the fields that the row's mask keeps, and the word is the row's format over its own other
fields. -/

theorem op_of_and (h : w &&& 0xF000 = formatA op 0) : fieldOp w = op := by
  rw [← fieldOp_formatA op 0, ← h, and_F000, fieldOp_formatA]

theorem formatA_of_and (h : w &&& 0xF000 = formatA op 0) : formatA op (fieldNNN w) = w :=
  formatA_of_op (op_of_and h)

theorem formatXK_of_and (h : w &&& 0xF000 = formatA op 0) : formatXK op (fieldX w) (fieldKK w) = w :=
  formatXK_of_op (op_of_and h)

theorem formatXF_of_and (h : w &&& 0xF0FF = formatXK op 0 kk) : formatXK op (fieldX w) kk = w := by
  rw [and_F0FF] at h
  exact formatXK_of_op_kk (by simpa using congrArg fieldOp h) (by simpa using congrArg fieldKK h)

theorem formatXY_of_and (h : w &&& 0xF00F = formatXYN op 0 0 n) :
    formatXYN op (fieldX w) (fieldY w) n = w := by
  rw [and_F00F] at h
  exact formatXYN_of_op_n (by simpa using congrArg fieldOp h) (by simpa using congrArg fieldN h)

theorem eq_of_and_FFFF {bits : Word} (h : w &&& 0xFFFF = bits) : bits = w :=
  h.symm.trans BitVec.and_allOnes

/-- Every row of the opcode map is the row of an instruction: what matches it is a word of that instruction. -/
theorem exists_encode_of_row : ∀ row ∈ opcodeTable, w &&& row.mask = row.bits → ∃ i, encode i = w := by
  simp only [opcodeTable, opcodeRowsLow, opcodeRowsEight, opcodeRowsHigh, opcodeRowsF,
    List.forall_mem_append, List.forall_mem_cons, List.not_mem_nil, false_implies, implies_true,
    and_true, and_assoc]
  exact ⟨
    fun h => ⟨.cls, eq_of_and_FFFF h⟩,
    fun h => ⟨.ret, eq_of_and_FFFF h⟩,
    fun h => ⟨.jp _, formatA_of_and h⟩,
    fun h => ⟨.call _, formatA_of_and h⟩,
    fun h => ⟨.seImm _ _, formatXK_of_and h⟩,
    fun h => ⟨.sneImm _ _, formatXK_of_and h⟩,
    fun h => ⟨.seReg _ _, formatXY_of_and h⟩,
    fun h => ⟨.ldImm _ _, formatXK_of_and h⟩,
    fun h => ⟨.addImm _ _, formatXK_of_and h⟩,
    fun h => ⟨.ldReg _ _, formatXY_of_and h⟩,
    fun h => ⟨.orReg _ _, formatXY_of_and h⟩,
    fun h => ⟨.andReg _ _, formatXY_of_and h⟩,
    fun h => ⟨.xorReg _ _, formatXY_of_and h⟩,
    fun h => ⟨.addReg _ _, formatXY_of_and h⟩,
    fun h => ⟨.sub _ _, formatXY_of_and h⟩,
    fun h => ⟨.shr _ _, formatXY_of_and h⟩,
    fun h => ⟨.subn _ _, formatXY_of_and h⟩,
    fun h => ⟨.shl _ _, formatXY_of_and h⟩,
    fun h => ⟨.sneReg _ _, formatXY_of_and h⟩,
    fun h => ⟨.ldI _, formatA_of_and h⟩,
    fun h => ⟨.jpV0 _, formatA_of_and h⟩,
    fun h => ⟨.rnd _ _, formatXK_of_and h⟩,
    fun h => ⟨_, encode_drw_of_op (op_of_and h)⟩,
    fun h => ⟨.skp _, formatXF_of_and h⟩,
    fun h => ⟨.sknp _, formatXF_of_and h⟩,
    fun h => ⟨.ldVxDT _, formatXF_of_and h⟩,
    fun h => ⟨.ldVxK _, formatXF_of_and h⟩,
    fun h => ⟨.ldDTVx _, formatXF_of_and h⟩,
    fun h => ⟨.ldSTVx _, formatXF_of_and h⟩,
    fun h => ⟨.addI _, formatXF_of_and h⟩,
    fun h => ⟨.ldF _, formatXF_of_and h⟩,
    fun h => ⟨.ldB _, formatXF_of_and h⟩,
    fun h => ⟨.ldMemVx _, formatXF_of_and h⟩,
    fun h => ⟨.ldVxMem _, formatXF_of_and h⟩⟩

/-- The legal words are the words of the instructions. -/
theorem wordLegal_iff : wordLegal w = true ↔ ∃ i, encode i = w := by
  constructor
  · intro h
    obtain ⟨row, hrow, hm⟩ := List.any_eq_true.mp h
    exact exists_encode_of_row row hrow (beq_iff_eq.mp hm)
  · rintro ⟨i, rfl⟩
    exact wordLegal_encode i

theorem decodes_iff : (∃ i, decode w = .ok i) ↔ wordLegal w = true := by
  rw [wordLegal_iff]
  exact exists_congr fun i => ⟨encode_of_decode, by rintro rfl; exact decode_encode i⟩

theorem decode_of_illegal (h : wordLegal w = false) : decode w = .error (.unknownOpcode w) := by
  cases hd : decode w with
  | ok i => simp [decodes_iff.mp ⟨i, hd⟩] at h
  | error e => rw [decode_error hd]

/-- Two different rows differ on some bit that both masks keep. -/
theorem rows_eq_of_agree : ∀ p ∈ opcodeTable, ∀ q ∈ opcodeTable,
    p.bits &&& q.mask = q.bits &&& p.mask → p = q := by
  decide +kernel

end

/-- Settles O4. -/
theorem decodeAcceptsExactlyTheOpcodeMap : Obligations.DecodeAcceptsExactlyTheOpcodeMap := fun _ =>
  ⟨decodes_iff, decode_of_illegal⟩

/-- Settles O5: on the bits that both masks keep, two rows that match one word both agree with the word. -/
theorem noWordMatchesTwoRows : Obligations.NoWordMatchesTwoRows := by
  intro w p q hp hq hpw hqw
  have hpb : w &&& p.mask = p.bits := beq_iff_eq.mp hpw
  have hqb : w &&& q.mask = q.bits := beq_iff_eq.mp hqw
  refine rows_eq_of_agree p hp q hq ?_
  calc p.bits &&& q.mask
    _ = w &&& q.mask &&& p.mask := by rw [← hpb, BitVec.and_assoc, BitVec.and_comm p.mask, BitVec.and_assoc]
    _ = q.bits &&& p.mask := by rw [hqb]

/-- Settles O1: each word is the one the encoder gives for its instruction. -/
theorem writtenOutWordsDecode : Obligations.WrittenOutWordsDecode :=
  ⟨decode_encode .cls, decode_encode .ret, decode_encode (.call 0x301), decode_encode (.seImm 3 0x42),
    decode_encode (.addReg 1 2), decode_encode (.shl 1 5), decode_encode (.rnd 3 0x0F),
    decode_encode (.drw 1 2 5), decode_encode (.skp 4), decode_encode (.ldMemVx 2),
    decode_encode (.ldVxK 5), by decide⟩

end Sys2Proof

namespace Sys2Proof.Machine

theorem fetchInstr_of_illegal {s : State} {w : Word} (hf : fetch s = .ok w) (hw : wordLegal w = false) :
    fetchInstr s = .error (.unknownOpcode w) := by
  simp [fetchInstr, hf, decode_of_illegal hw]

/-- Settles O8: the decode fails, and a failing decode is the failure of the cycle. -/
theorem illegalWordStopsTheRun : Obligations.IllegalWordStopsTheRun := fun _ _ hl hf hw =>
  step_of_fetch_error hl (fetchInstr_of_illegal hf hw)

end Sys2Proof.Machine
end

section
/-! SUPPORT. The cycle of R70 as a whole: fetch, decode and execute (O6, O7), that a live machine goes on
(O9), and what steps 4 to 8 leave (O12). -/

namespace Sys2Proof.Machine

section
variable {i : Instr} {s t : State}

/-! ## The first three steps -/

theorem step_of_exec_fault {f : Fault} (hl : s.live) (hi : fetchInstr s = .ok i)
    (he : exec i s.beginCycle = .fault f) : step s = .fault f := by
  simp [step_of_live hl, cycle, hi, he]

theorem step_of_exec_refused {r : Refusal} (hl : s.live) (hi : fetchInstr s = .ok i)
    (he : exec i s.beginCycle = .refused r) : step s = .refused r := by
  simp [step_of_live hl, cycle, hi, he]

theorem fetchInstr_of_fetch_error {k : FailureKind} (h : fetch s = .error k) : fetchInstr s = .error k := by
  simp [fetchInstr, h]

/-- Every execute step gives a next state: a failure is one, too (R129). -/
theorem exec_gives_next (i : Instr) (s : State) : ∃ t, exec i s = .next t := by
  obtain ⟨k, _, he⟩ | ⟨_, t, he, _⟩ := execOutcome i s
  · exact ⟨s.raise k, he⟩
  · exact ⟨t, he⟩

/-- A cycle can always be run: its fetch or decode fails, or its instruction executes. -/
theorem step_gives_next (hl : s.live) : ∃ t, step s = .next t := by
  cases hi : fetchInstr s with
  | error k => exact ⟨s.raise k, step_of_fetch_error hl hi⟩
  | ok i =>
    obtain ⟨t, he⟩ := exec_gives_next i s.beginCycle
    exact ⟨endCycle s t, step_of_exec_next hl hi he⟩

theorem step_of_halted (h : s.run = .halted) : step s = .fault .halted := by
  simp [step, h]

theorem step_of_faulted {k : FailureKind} (h : s.run = .faulted k) : step s = .fault (.failed k) := by
  simp [step, h]

/-! ## Steps 4 to 8 -/

/-- The environment's ports are as they were after every execute step, a failing one included. -/
theorem exec_ports_eq (h : exec i s = .next t) : t.keys = s.keys ∧ t.frames = s.frames ∧
    t.inputs = s.inputs ∧ t.used = s.used ∧ t.font = s.font := by
  obtain ⟨k, _, rfl⟩ | ⟨_, h⟩ := exec_next_cases h
  · simp
  · exact h.ports_eq

theorem decay_of_ne_zero {b : Byte} (h : b ≠ 0) : decay b = b - 1 :=
  if_pos (Nat.pos_of_ne_zero fun hb => h (BitVec.eq_of_toNat_eq hb))

/-- A timer after step 7, tick or no tick: at 0 it stays (R77). -/
theorem decay_on_tick (tick : Bool) (b : Byte) :
    (if tick then decay b else b) = if tick = true ∧ b ≠ 0 then b - 1 else b := by
  by_cases hb : b = 0
  · cases tick <;> simp [hb, decay]
  · simp only [decay_of_ne_zero hb, ne_eq, hb, not_false_eq_true, and_true]

end

/-- Settles O6. -/
theorem stepRunsTheDecodedInstruction : Obligations.StepRunsTheDecodedInstruction := fun _ _ hl _ hi =>
  ⟨fun _ => step_of_exec_next hl hi, fun _ => step_of_exec_fault hl hi, fun _ => step_of_exec_refused hl hi⟩

/-- Settles O7: pc lies in one of the three ranges of `fetch_cases`, and in each the other two clauses do not
apply. -/
theorem fetchReadsTwoBytesOrFails : Obligations.FetchReadsTwoBytesOrFails := by
  intro s
  have hfails (k : FailureKind) (hl : s.live) (hf : fetch s = .error k) : step s = .next (s.raise k) :=
    step_of_fetch_error hl (fetchInstr_of_fetch_error hf)
  obtain ⟨hpc, hf⟩ | ⟨hpc, hf⟩ | ⟨hpc, hf⟩ := fetch_cases s
  · exact ⟨fun _ => hf, by omega, by omega, hfails⟩
  · exact ⟨by omega, fun _ => hf, by omega, hfails⟩
  · exact ⟨by omega, by omega, fun _ => ⟨_, hf, wordOfBytes_toNat _ _⟩, hfails⟩

/-- Settles O9. -/
theorem onlyEndedRunsHaveNoNextCycle : Obligations.OnlyEndedRunsHaveNoNextCycle := fun _ =>
  ⟨step_gives_next, step_of_halted, fun _ => step_of_faulted⟩

/-- Settles O12, component by component: the execute step leaves the ports as they were at the start of the
cycle, so steps 4 to 8 use the inputs and the frames of the state before it. -/
theorem completedCycleRunsItsSteps : Obligations.CompletedCycleRunsItsSteps := by
  intro s t i hl hi he hrun
  obtain ⟨_, hframes, hinputs, hused, _⟩ := exec_ports_eq he
  have hinput : t.input = s.input := State.input_eq_of s t hinputs hused
  have hstep : step s = .next t.complete := by
    rw [step_of_exec_next hl hi he, endCycle_of_running hrun]
  rw [hstep]
  refine congrArg Host.Outcome.next ?_
  apply State.ext_of <;>
    simp [hframes, hinputs, hused, hinput, decay_on_tick]

end Sys2Proof.Machine
end

section
/-! SUPPORT. The inputs of a cycle stand in two fields of the state that only `Cxkk` and `Fx0A` read in their
execute step (R70): every other instruction commutes with a change of the inputs (O15). -/

namespace Sys2Proof.Machine

/-- The state with other inputs for the coming cycles. -/
def State.withInputs (l : List Config.CycleInput) (n : Nat) (s : State) : State :=
  { s with inputs := l, used := n }

/-- The result with other inputs in its next state, if it has one. -/
def Result.withInputs (l : List Config.CycleInput) (n : Nat) : Result → Result
  | .next t => .next (t.withInputs l n)
  | .fault f => .fault f
  | .refused r => .refused r

section
variable (l : List Config.CycleInput) (n : Nat) (s : State)

/-! ## The shared operations -/

theorem State.withInputs_SP : (s.withInputs l n).SP = s.SP := rfl

theorem next_skipIf_withInputs (c : Bool) :
    (.next ((s.withInputs l n).skipIf c) : Result) = Result.withInputs l n (.next (s.skipIf c)) := by
  cases c <;> rfl

theorem State.settle_withInputs (r : Except FailureKind State) :
    (s.withInputs l n).settle (r.map (State.withInputs l n)) = Result.withInputs l n (s.settle r) := by
  cases r <;> rfl

theorem State.push_withInputs (a : Word) :
    (s.withInputs l n).push a = (s.push a).map (State.withInputs l n) := by
  by_cases h : s.SP.val < 16 <;>
    simp only [State.push, State.withInputs_SP, h, ↓reduceDIte] <;> rfl

theorem State.pop_withInputs :
    (s.withInputs l n).pop = s.pop.map fun p => (p.1, p.2.withInputs l n) := by
  by_cases h : s.SP.val = 0 <;>
    simp only [State.pop, State.withInputs_SP, h, ↓reduceDIte] <;> rfl

theorem State.storeRange_withInputs (a : Nat) (bytes : List Byte) :
    (s.withInputs l n).storeRange a bytes = (s.storeRange a bytes).map (State.withInputs l n) := by
  cases h : lowestOutOfBounds a bytes.length <;> simp only [State.storeRange, h] <;> rfl

/-- A store's range and bytes do not come from the inputs. -/
theorem settle_storeRange_withInputs (a : Nat) (bytes : List Byte) :
    (s.withInputs l n).settle ((s.withInputs l n).storeRange a bytes) =
      Result.withInputs l n (s.settle (s.storeRange a bytes)) := by
  rw [State.storeRange_withInputs, State.settle_withInputs]

/-! ## The instructions that can fail -/

theorem exec_ret_withInputs : exec .ret (s.withInputs l n) = Result.withInputs l n (exec .ret s) := by
  have hw := s.pop_withInputs l n
  cases hp : s.pop with
  | ok p =>
    rw [hp] at hw
    rw [exec_ret_of_pop hp, exec_ret_of_pop hw]
    rfl
  | error k =>
    rw [hp] at hw
    rw [exec_ret_of_pop_error hp, exec_ret_of_pop_error hw]
    rfl

theorem exec_call_withInputs (nnn : Addr12) :
    exec (.call nnn) (s.withInputs l n) = Result.withInputs l n (exec (.call nnn) s) := by
  have hw := s.push_withInputs l n s.pc
  cases hp : s.push s.pc with
  | ok t =>
    rw [hp] at hw
    rw [exec_call_of_push hp, exec_call_of_push hw]
    rfl
  | error k =>
    rw [hp] at hw
    rw [exec_call_of_push_error hp, exec_call_of_push_error hw]
    rfl

theorem exec_drw_withInputs (x y : Reg) (rows : Fin 16) :
    exec (.drw x y rows) (s.withInputs l n) = Result.withInputs l n (exec (.drw x y rows) s) := by
  have hw : spriteBytes (s.withInputs l n) rows = spriteBytes s rows := rfl
  cases hb : spriteBytes s rows with
  | ok bytes => rw [exec_drw_of_bytes hb, exec_drw_of_bytes (hw.trans hb)]; rfl
  | error k => rw [exec_drw_of_error hb, exec_drw_of_error (hw.trans hb)]; rfl

theorem exec_ldVxMem_withInputs (x : Reg) :
    exec (.ldVxMem x) (s.withInputs l n) = Result.withInputs l n (exec (.ldVxMem x) s) := by
  have hw : (s.withInputs l n).readRange (s.withInputs l n).I.toNat (x.val + 1) =
    s.readRange s.I.toNat (x.val + 1) := rfl
  cases hb : s.readRange s.I.toNat (x.val + 1) with
  | ok bytes => rw [exec_ldVxMem_of_bytes hb, exec_ldVxMem_of_bytes (hw.trans hb)]; rfl
  | error k => rw [exec_ldVxMem_of_error hb, exec_ldVxMem_of_error (hw.trans hb)]; rfl

theorem exec_skp_withInputs (x : Reg) :
    exec (.skp x) (s.withInputs l n) = Result.withInputs l n (exec (.skp x) s) := by
  have hw : keyIndex (s.withInputs l n) x = keyIndex s x := rfl
  cases hk : keyIndex s x with
  | ok k =>
    rw [exec_skp_of_key hk, exec_skp_of_key (hw.trans hk)]
    exact next_skipIf_withInputs l n s _
  | error k => rw [exec_skp_of_error hk, exec_skp_of_error (hw.trans hk)]; rfl

theorem exec_sknp_withInputs (x : Reg) :
    exec (.sknp x) (s.withInputs l n) = Result.withInputs l n (exec (.sknp x) s) := by
  have hw : keyIndex (s.withInputs l n) x = keyIndex s x := rfl
  cases hk : keyIndex s x with
  | ok k =>
    rw [exec_sknp_of_key hk, exec_sknp_of_key (hw.trans hk)]
    exact next_skipIf_withInputs l n s _
  | error k => rw [exec_sknp_of_error hk, exec_sknp_of_error (hw.trans hk)]; rfl

/-! ## All instructions -/

variable {i : Instr}

/-- An instruction other than `Cxkk` and `Fx0A` gives with other inputs the same result, with those inputs. -/
theorem exec_withInputs (hrnd : ∀ x kk, i ≠ .rnd x kk) (hkey : ∀ x, i ≠ .ldVxK x) :
    exec i (s.withInputs l n) = Result.withInputs l n (exec i s) := by
  cases i with
  | rnd x kk => exact absurd rfl (hrnd x kk)
  | ldVxK x => exact absurd rfl (hkey x)
  | ret => exact exec_ret_withInputs l n s
  | call nnn => exact exec_call_withInputs l n s nnn
  | drw x y rows => exact exec_drw_withInputs l n s x y rows
  | ldVxMem x => exact exec_ldVxMem_withInputs l n s x
  | skp x => exact exec_skp_withInputs l n s x
  | sknp x => exact exec_sknp_withInputs l n s x
  | ldB | ldMemVx => exact settle_storeRange_withInputs l n s _ _
  | seImm | sneImm | seReg | sneReg => exact next_skipIf_withInputs l n s _
  | cls | jp | jpV0 | ldImm | addImm | ldReg | orReg | andReg | xorReg | addReg | sub | shr | subn | shl
  | ldVxDT | ldDTVx | ldSTVx | ldI | addI | ldF => rfl

end

/-- Settles O15. -/
theorem inputsReachOnlyTheirInstructions : Obligations.InputsReachOnlyTheirInstructions := by
  intro i s t l n hrnd hkey he
  have h := exec_withInputs l n s hrnd hkey
  rw [he] at h
  exact h

end Sys2Proof.Machine
end

section
/-! SUPPORT. Control transfer and skips (41_control_flow.md): the stack at a given SP, the jumps, and the skips
as one family (O22 to O30). -/

namespace Sys2Proof

section
variable {op n : Nibble} {x y : Reg}

/-! ## The low nibble of `5xyN` and `9xyN` -/

/-- The function nibble of format XY is the low nibble of the word, so it can be put there afterwards. -/
theorem formatXYN_or_low (op : Nibble) (x y : Reg) (n : Nibble) :
    formatXYN op x y 0 ||| n.setWidth 16 = formatXYN op x y n := by
  have hlow : n.setWidth 16 = (0#12 : BitVec 12) ++ n := BitVec.setWidth_eq_append (by decide)
  calc formatXYN op x y 0 ||| n.setWidth 16
    _ = (op ++ bitsOf x ++ bitsOf y ||| 0#12) ++ (0#4 ||| n) := by rw [hlow]; exact BitVec.or_append
    _ = formatXYN op x y n := by rw [BitVec.or_zero, BitVec.zero_or]; rfl

/-- R64: groups 5 and 9 have no row for a low nibble other than 0. -/
theorem decode_low_nibble_of_five_or_nine (hop : op = 0x5 ∨ op = 0x9) (hn : n ≠ 0) :
    decode (formatXYN op x y 0 ||| n.setWidth 16) =
      .error (.unknownOpcode (formatXYN op x y 0 ||| n.setWidth 16)) := by
  rw [formatXYN_or_low]
  obtain rfl | rfl := hop
  · simpa [decode] using hn
  · simpa [decode] using hn

end

end Sys2Proof

namespace Sys2Proof.Machine

section
variable {i : Instr} {s : State} {nnn : Addr12}

/-- An execute step whose failure condition holds raises that failure, and nothing else changes (R126, R129). -/
theorem exec_raises {k : FailureKind} (hf : failureOf i s = some k) : exec i s = .next (s.raise k) := by
  obtain ⟨j, hj, he⟩ | ⟨hnone, _⟩ := execOutcome i s
  · rw [hf] at hj
    cases hj
    exact he
  · rw [hf] at hnone
    cases hnone

/-! ## The stack at a given SP -/

theorem State.push_at (a : Word) {k : Fin 16} (h : s.SP.val = k.val) :
    s.push a = .ok ((s.writeSlot k a).writeSP ⟨k.val + 1, by omega⟩) := by
  obtain ⟨h16, _⟩ | ⟨j, hj, hp⟩ := s.push_cases a
  · have h16 : s.SP.val = 16 := congrArg Fin.val h16
    omega
  · obtain rfl : j = k := Fin.ext (hj.symm.trans h)
    exact hp

theorem State.pop_at {k : Fin 16} (h : s.SP.val = k.val + 1) :
    s.pop = .ok (s.Stack[k.val], s.writeSP ⟨k.val, by omega⟩) := by
  obtain ⟨h0, _⟩ | ⟨j, hj, hp⟩ := s.pop_cases
  · have h0 : s.SP.val = 0 := congrArg Fin.val h0
    omega
  · obtain rfl : j = k := Fin.ext (by omega)
    exact hp

theorem exec_call_at {k : Fin 16} (h : s.SP.val = k.val) : exec (.call nnn) s =
    .next (((s.writeSlot k s.pc).writeSP ⟨k.val + 1, by omega⟩).jumpTo (zext16 nnn)) :=
  exec_call_of_push (State.push_at s.pc h)

theorem exec_ret_at {k : Fin 16} (h : s.SP.val = k.val + 1) : exec .ret s =
    .next ((s.writeSP ⟨k.val, by omega⟩).writePc s.Stack[k.val]) :=
  exec_ret_of_pop (State.pop_at h)

/-! ## The jumps -/

/-- nnn + V0 is at most 0x10FE, so the 16-bit sum is the exact one (R84). -/
theorem offsetTarget_toNat (s : State) (nnn : Addr12) :
    (offsetTarget s nnn).toNat = nnn.toNat + (s.readV V0).toNat := by
  have hn := nnn.isLt
  have hv := (s.readV V0).isLt
  simp only [offsetTarget, BitVec.toNat_add, zext16_toNat, BitVec.toNat_setWidth]
  omega

/-- With pc at 0xFFF or 0x1000, the first byte of the fetch that memory does not have is the one at 0x1000
(R71). -/
theorem fetch_at_end_of_memory (h : s.pc.toNat = 0xFFF ∨ s.pc.toNat = 0x1000) :
    fetch s = .error (.outOfBounds 0x1000) := by
  obtain ⟨hpc, hf⟩ | ⟨_, hf⟩ | ⟨hpc, _⟩ := fetch_cases s
  · have h1000 : s.pc.toNat = 0x1000 := by omega
    rw [hf, h1000]
  · exact hf
  · omega

/-! ## The skips -/

/-- A skip instruction that does not fail skips by its condition, and that is all it does: of the kinds of write,
only a skip belongs to an instruction with a skip condition. -/
theorem exec_of_skipCondition {c : Bool} (h : skipCondition i s = some c) (hf : failureOf i s = none) :
    exec i s = .next (s.skipIf c) := by
  obtain ⟨t, he, ht⟩ := exec_completes hf
  cases ht with
  | skip d hd =>
    rw [h] at hd
    cases hd
    exact he
  | data hpc => simp [writesPc_of_skipCondition h] at hpc
  | jump a hj => cases i <;> simp_all [jumps, skipCondition]
  | call nnn e => simp [e, skipCondition] at h
  | ret e => simp [e, skipCondition] at h

theorem exec_of_skip (h : skipCondition i s = some true) (hf : failureOf i s = none) :
    exec i s = .next { s with pc := s.pc + 2 } :=
  exec_of_skipCondition h hf

theorem exec_of_no_skip (h : skipCondition i s = some false) (hf : failureOf i s = none) :
    exec i s = .next s :=
  exec_of_skipCondition h hf

/-- The cycle of a taken skip at 0xFFC adds 2 and 2 to pc, which so leaves memory (R71, R76). -/
theorem step_of_skip_at_FFC (hl : s.live) (hi : fetchInstr s = .ok i) (hf : failureOf i s = none)
    (ha : answered i s) (h : skipCondition i s = some true) (hpc : s.pc = 0xFFC) :
    ∃ u, step s = .next u ∧ u.pc = 0x1000 ∧ fetch u = .error (.outOfBounds 0x1000) := by
  obtain ⟨u, hu, hnext⟩ := pcOfTheNextCycle s i hl hi hf ha
  have hend : u.pc = 0x1000 := by
    rw [hnext, nextPcOf_of_skipCondition h, hpc]
    rfl
  exact ⟨u, hu, hend, fetch_at_end_of_memory (.inr (congrArg BitVec.toNat hend))⟩

end

/-- Settles O25: the slot the CALL wrote is the one the RET reads. -/
theorem retUndoesCall : Obligations.RetUndoesCall := by
  intro nnn s t t' hne he hSP hStack
  obtain ⟨h16, _⟩ | ⟨k, hk, hp⟩ := s.push_cases s.pc
  · exact absurd h16 hne
  · rw [exec_call_of_push hp] at he
    cases he
    have hk' : t'.SP.val = k.val + 1 := congrArg Fin.val hSP
    exact ⟨_, exec_ret_at hk', Fin.ext hk.symm, by simp [hStack], rfl, rfl⟩

/-- Settles O22. -/
theorem retPopsThePc : Obligations.RetPopsThePc := fun s =>
  ⟨fun h => exec_raises (failsIf_of h),
    fun _ hk => ⟨_, exec_ret_at hk, rfl, rfl, rfl, fun _ => by simp⟩⟩

/-- Settles O23. -/
theorem jpSetsThePc : Obligations.JpSetsThePc := fun nnn s =>
  ⟨formatA_toNat 0x1 nnn, s.jumpTo (zext16 nnn), rfl, zext16_toNat nnn, rfl, rfl, s.readByte_jumpTo _,
    fun h => fetch_at_end_of_memory (.inl (by rw [State.jumpTo_pc, zext16_toNat, h]; rfl))⟩

/-- Settles O24. -/
theorem callPushesItsAddress : Obligations.CallPushesItsAddress := by
  intro nnn s
  refine ⟨fun h => exec_raises (failsIf_of h), fun k hk =>
    ⟨_, exec_call_at hk, by simp, fun j hj => ?_, rfl, zext16_toNat nnn, rfl, rfl, fun _ => by simp⟩⟩
  have hne : k.val ≠ j.val := fun h => hj (Fin.ext h.symm)
  simp [hne]

/-- Settles O26. -/
theorem jpOffsetAddsV0 : Obligations.JpOffsetAddsV0 := fun nnn s =>
  ⟨s.jumpTo (offsetTarget s nnn), rfl, offsetTarget_toNat s nnn, rfl, rfl, s.readByte_jumpTo _⟩

/-- Settles O27. -/
theorem skipIfEqualImmediate : Obligations.SkipIfEqualImmediate := by
  intro x kk s
  have hskip (h : s.readV x = kk) : skipCondition (.seImm x kk) s = some true := by simp [skipCondition, h]
  have hstay (h : s.readV x ≠ kk) : skipCondition (.seImm x kk) s = some false := by simp [skipCondition, h]
  exact ⟨formatXK_toNat 0x3 x kk, fun h => exec_of_skip (hskip h) rfl, fun h => exec_of_no_skip (hstay h) rfl,
    fun hl hi h hpc => step_of_skip_at_FFC hl hi rfl trivial (hskip h) hpc⟩

/-- Settles O28. -/
theorem skipIfNotEqualImmediate : Obligations.SkipIfNotEqualImmediate := by
  intro x kk s
  have hskip (h : s.readV x ≠ kk) : skipCondition (.sneImm x kk) s = some true := by simp [skipCondition, h]
  have hstay (h : s.readV x = kk) : skipCondition (.sneImm x kk) s = some false := by simp [skipCondition, h]
  exact ⟨formatXK_toNat 0x4 x kk, fun h => exec_of_skip (hskip h) rfl, fun h => exec_of_no_skip (hstay h) rfl,
    fun hl hi h hpc => step_of_skip_at_FFC hl hi rfl trivial (hskip h) hpc⟩

/-- Settles O29. -/
theorem skipIfRegistersEqual : Obligations.SkipIfRegistersEqual := by
  intro x y s
  have hskip (z : Reg) (h : s.readV x = s.readV z) : skipCondition (.seReg x z) s = some true := by
    simp [skipCondition, h]
  have hstay (h : s.readV x ≠ s.readV y) : skipCondition (.seReg x y) s = some false := by
    simp [skipCondition, h]
  exact ⟨formatXYN_toNat 0x5 x y 0, fun _ => decode_low_nibble_of_five_or_nine (.inl rfl),
    fun h => exec_of_skip (hskip y h) rfl, fun h => exec_of_no_skip (hstay h) rfl,
    exec_of_skip (hskip x rfl) rfl⟩

/-- Settles O30. -/
theorem skipIfRegistersDiffer : Obligations.SkipIfRegistersDiffer := by
  intro x y s
  have hskip (h : s.readV x ≠ s.readV y) : skipCondition (.sneReg x y) s = some true := by
    simp [skipCondition, h]
  have hstay (z : Reg) (h : s.readV x = s.readV z) : skipCondition (.sneReg x z) s = some false := by
    simp [skipCondition, h]
  exact ⟨formatXYN_toNat 0x9 x y 0, fun _ => decode_low_nibble_of_five_or_nine (.inr rfl),
    fun h => exec_of_skip (hskip h) rfl, fun h => exec_of_no_skip (hstay y h) rfl,
    exec_of_no_skip (hstay x rfl) rfl⟩

end Sys2Proof.Machine
end

section
/-! SUPPORT. Register and ALU instructions (42_alu.md). They make two kinds of write: of Vx alone, and of Vx with
the flag in VF last. What each kind changes and leaves is said once, and the arithmetic of each result and flag
apart from it (O31 to O40). -/

namespace Sys2Proof.Machine

/-! ## The flags and results as numbers (R27, R102) -/

section
variable (a b : Byte)

theorem flagByte_carryOut_toNat :
    (flagByte (carryOut a b)).toNat = if a.toNat + b.toNat > 255 then 1 else 0 := by
  simp only [flagByte_toNat, carryOut, decide_eq_true_eq]

theorem flagByte_notBorrow_toNat :
    (flagByte (notBorrow a b)).toNat = if a.toNat > b.toNat then 1 else 0 := by
  simp only [flagByte_toNat, notBorrow, decide_eq_true_eq]

theorem flagByte_lowBitOut_toNat : (flagByte (lowBitOut a)).toNat = a.toNat % 2 := by
  simp only [flagByte_toNat, lowBitOut, BitVec.getLsbD, Nat.testBit_zero, decide_eq_true_eq]
  split <;> omega

/-- Bit 7 of a byte is all that is left of it above 127. -/
theorem flagByte_highBitOut_toNat : (flagByte (highBitOut a)).toNat = a.toNat / 128 := by
  have ha := a.isLt
  simp only [flagByte_toNat, highBitOut, BitVec.getLsbD, Nat.testBit_eq_decide_div_mod_eq, decide_eq_true_eq]
  split <;> omega

theorem byte_sub_toNat : (a - b).toNat = (a.toNat + 256 - b.toNat) % 256 := by
  have hb := b.isLt
  rw [BitVec.toNat_sub]
  omega

theorem byte_shiftRight_one_toNat : (a >>> 1).toNat = a.toNat / 2 := by
  rw [BitVec.toNat_ushiftRight, Nat.shiftRight_eq_div_pow, Nat.pow_one]

theorem byte_shiftLeft_one_toNat : (a <<< 1).toNat = a.toNat * 2 % 256 := by
  rw [BitVec.toNat_shiftLeft, Nat.shiftLeft_eq, Nat.pow_one]

end

/-! ## The two kinds of write -/

section
variable {i : Instr} {s : State} {x y r : Reg} {b : Byte} {f : Bool}

theorem State.readV_writeV_same (s : State) (x : Reg) (b : Byte) : (s.writeV x b).readV x = b := by
  rw [State.readV_writeV, if_pos rfl]

theorem State.readV_writeV_of_ne (h : r ≠ x) : (s.writeV x b).readV r = s.readV r := by
  rw [State.readV_writeV, if_neg h]

theorem State.readV_writeFlagged_VF (s : State) (x : Reg) (b : Byte) (f : Bool) :
    (s.writeFlagged x b f).readV VF = flagByte f :=
  State.readV_writeV_same _ _ _

theorem State.readV_writeFlagged_dest (h : x ≠ VF) : (s.writeFlagged x b f).readV x = b :=
  (State.readV_writeV_of_ne h).trans (State.readV_writeV_same s x b)

theorem State.readV_writeFlagged_of_ne (hx : r ≠ x) (hf : r ≠ VF) :
    (s.writeFlagged x b f).readV r = s.readV r :=
  (State.readV_writeV_of_ne hf).trans (State.readV_writeV_of_ne hx)

/-- An instruction that writes Vx alone with a bitwise combination of Vx and Vy. -/
theorem exec_bitwise {op : Bool → Bool → Bool} (he : exec i s = .next (s.writeV x b))
    (hb : ∀ k, b.getLsbD k = op ((s.readV x).getLsbD k) ((s.readV y).getLsbD k)) :
    ∃ t, exec i s = .next t ∧
      (∀ k, (t.readV x).getLsbD k = op ((s.readV x).getLsbD k) ((s.readV y).getLsbD k)) ∧
      (∀ r, r ≠ x → t.readV r = s.readV r) ∧ t = { s with V := t.V } ∧ s.sameMemory t :=
  ⟨_, he, fun k => by rw [State.readV_writeV_same, hb], fun _ => State.readV_writeV_of_ne, rfl,
    s.readByte_writeV x b⟩

/-- An instruction that writes Vx and then the flag: with x = 0xF, VF holds the flag (R11, R103, D9). -/
theorem exec_flagged {flag result : Nat} (he : exec i s = .next (s.writeFlagged x b f))
    (hflag : (flagByte f).toNat = flag) (hresult : b.toNat = result) :
    ∃ t, exec i s = .next t ∧ (t.readV VF).toNat = flag ∧ (x ≠ VF → (t.readV x).toNat = result) ∧
      (∀ r, r ≠ x → r ≠ VF → t.readV r = s.readV r) ∧ t = { s with V := t.V } ∧ s.sameMemory t :=
  ⟨_, he, by rw [State.readV_writeFlagged_VF, hflag],
    fun h => by rw [State.readV_writeFlagged_dest h, hresult],
    fun _ => State.readV_writeFlagged_of_ne, rfl, s.readByte_writeFlagged x b f⟩

end

/-! ## Writes of Vx alone -/

/-- Settles O31. -/
theorem loadImmediate : Obligations.LoadImmediate := fun x kk s =>
  ⟨formatXK_toNat 0x6 x kk, s.writeV x kk, rfl, fun r => s.readV_writeV x r kk, rfl, s.readByte_writeV x kk⟩

/-- Settles O32. -/
theorem addImmediateWithoutFlag : Obligations.AddImmediateWithoutFlag := fun x kk s =>
  ⟨formatXK_toNat 0x7 x kk, s.writeV x (s.readV x + kk), rfl,
    by rw [State.readV_writeV_same, BitVec.toNat_add],
    fun _ => State.readV_writeV_of_ne, rfl, s.readByte_writeV x _⟩

/-- Settles O33. -/
theorem copyRegister : Obligations.CopyRegister := fun x y s =>
  ⟨formatXYN_toNat 0x8 x y 0, s.writeV x (s.readV y), rfl, fun r => s.readV_writeV x r _, rfl,
    s.readByte_writeV x _⟩

/-- Settles O34. -/
theorem logicWritesVxAlone : Obligations.LogicWritesVxAlone := fun _ _ _ =>
  ⟨exec_bitwise rfl fun _ => BitVec.getLsbD_or, exec_bitwise rfl fun _ => BitVec.getLsbD_and,
    exec_bitwise rfl fun _ => BitVec.getLsbD_xor⟩

/-- Settles O40: the inputs that give a byte are one record with that byte as its draw. -/
theorem randomByteUnderMask : Obligations.RandomByteUnderMask := by
  intro x kk s
  refine ⟨formatXK_toNat 0xC x kk, ⟨s.writeV x (s.input.rnd &&& kk), rfl, fun r => s.readV_writeV x r _,
    fun hkk => ?_, rfl, s.readByte_writeV x _⟩, fun byte =>
      ⟨[{ (default : Config.CycleInput) with rnd := byte }], _, rfl, State.readV_writeV_same _ x _⟩⟩
  rw [State.readV_writeV_same, hkk]
  exact BitVec.and_zero

/-! ## Writes of Vx and the flag -/

/-- Settles O35. -/
theorem addSetsCarry : Obligations.AddSetsCarry := fun x y s =>
  ⟨formatXYN_toNat 0x8 x y 4,
    exec_flagged rfl (flagByte_carryOut_toNat (s.readV x) (s.readV y)) (BitVec.toNat_add _ _)⟩

/-- Settles O36. -/
theorem subSetsNotBorrow : Obligations.SubSetsNotBorrow := fun x y s =>
  exec_flagged rfl (flagByte_notBorrow_toNat (s.readV x) (s.readV y)) (byte_sub_toNat _ _)

/-- Settles O37. -/
theorem subnSetsNotBorrow : Obligations.SubnSetsNotBorrow := fun x y s =>
  exec_flagged rfl (flagByte_notBorrow_toNat (s.readV y) (s.readV x)) (byte_sub_toNat _ _)

/-- Settles O38. -/
theorem shrSetsLowBit : Obligations.ShrSetsLowBit := fun x _ s =>
  exec_flagged rfl (flagByte_lowBitOut_toNat (s.readV x)) (byte_shiftRight_one_toNat _)

/-- Settles O39. -/
theorem shlSetsHighBit : Obligations.ShlSetsHighBit := fun x _ s =>
  exec_flagged rfl (flagByte_highBitOut_toNat (s.readV x)) (byte_shiftLeft_one_toNat _)

end Sys2Proof.Machine
end

section
/-! SUPPORT. Index register and memory (43_index_memory.md): the arithmetic of I and of the decimal digits, and
what a store of a range and a load of registers leave (O41 to O46). -/

namespace Sys2Proof.Machine

section
variable {i : Instr} {s : State} {x : Reg}

/-! ## The values that go to I (R105, R106) -/

theorem indexPlus_toNat (s : State) (x : Reg) :
    (indexPlus s x).toNat = (s.I.toNat + (s.readV x).toNat) % 65536 := by
  rw [indexPlus, BitVec.toNat_add, BitVec.toNat_setWidth_of_le (by decide)]

/-- FONT_BASE + 5 Vx is at most 432 + 5 * 255, so the 16-bit sum is the exact one (R45). -/
theorem glyphAddress_toNat (s : State) (x : Reg) :
    (glyphAddress s x).toNat = s.font.base.val + 5 * (s.readV x).toNat := by
  have hbase := s.font.base.isLt
  have hv := (s.readV x).isLt
  rw [glyphAddress, BitVec.toNat_ofNat]
  omega

/-! ## The decimal digits (R107) -/

section
variable (v : Byte)

theorem bcdDigits_hundreds : (bcdDigits v)[0].toNat = v.toNat / 100 := BitVec.toNat_udiv

theorem bcdDigits_tens : (bcdDigits v)[1].toNat = v.toNat / 10 % 10 :=
  BitVec.toNat_umod.trans (congrArg (· % 10) BitVec.toNat_udiv)

theorem bcdDigits_ones : (bcdDigits v)[2].toNat = v.toNat % 10 := BitVec.toNat_umod

end

theorem encode_ldB_toNat (x : Reg) : (encode (.ldB x)).toNat = 0xF033 + x.val * 0x100 :=
  (formatXK_toNat 0xF x 0x33).trans (Nat.add_right_comm 0xF000 (x.val * 0x100) 0x33)

/-! ## Stores, and the fetch of what was stored -/

/-- An instruction that stores a range that fits from I on: byte k stands at I + k, every other address is as
before, and nothing else changes. -/
theorem exec_of_store {bytes : List Byte} (hm : s.Mem.wf s.font = true)
    (he : exec i s = s.settle (s.storeRange s.I.toNat bytes)) (hin : s.I.toNat + bytes.length ≤ 0x1000) :
    ∃ t, exec i s = .next t ∧
      (∀ k (hk : k < bytes.length), t.readByte (s.I.toNat + k) = bytes[k]) ∧
      (∀ a, a < s.I.toNat ∨ s.I.toNat + bytes.length ≤ a → t.readByte a = s.readByte a) ∧
      t = { s with Mem := t.Mem } := by
  have hsize : Config.memSize = 0x1000 := rfl
  obtain ⟨_, hst⟩ | ⟨_, hout, _⟩ := s.storeRange_cases s.I.toNat bytes
  · have hread := State.readByte_storeRange hm hin hst
    refine ⟨_, by rw [he, hst, State.settle_ok], fun k hk => ?_, fun a ha => ?_, rfl⟩
    · rw [hread, dif_pos (by omega)]
      simp
    · rw [hread, dif_neg (by omega)]
  · omega

/-- A fetch within memory gives the word of the two bytes at pc (R71). -/
theorem fetch_writePc_of_le (t : State) {pc : Word} (h : pc.toNat ≤ 0xFFE) :
    fetch (t.writePc pc) = .ok (wordOfBytes (t.readByte pc.toNat) (t.readByte (pc.toNat + 1))) := by
  have hle : (t.writePc pc).pc.toNat ≤ 0xFFE := h
  obtain ⟨hgt, _⟩ | ⟨hend, _⟩ | ⟨_, hf⟩ := fetch_cases (t.writePc pc)
  · omega
  · omega
  · exact hf

/-! ## The load of registers (R109) -/

/-- `Fx65` where its range fits: the register file is loaded with the bytes from I on. -/
theorem exec_ldVxMem_of_le (h : s.I.toNat + x.val ≤ 0xFFF) : exec (.ldVxMem x) s =
    .next (s.writeRegs ((List.range (x.val + 1)).map fun k => s.readByte (s.I.toNat + k))) := by
  have hsize : Config.memSize = 0x1000 := rfl
  obtain ⟨_, hr⟩ | ⟨_, hout, _⟩ := s.readRange_cases s.I.toNat (x.val + 1)
  · exact exec_ldVxMem_of_bytes hr
  · omega

/-- A register after a load of the first n from a function of the register's number. -/
theorem State.readV_writeRegs_range (s : State) (f : Nat → Byte) (n : Nat) (r : Reg) :
    (s.writeRegs ((List.range n).map f)).readV r = if r.val < n then f r.val else s.readV r := by
  simp [State.readV_writeRegs]

end

/-! ## Writes of I -/

/-- Settles O41. -/
theorem loadIndex : Obligations.LoadIndex := fun nnn s =>
  ⟨formatA_toNat 0xA nnn, s.writeI (zext16 nnn), rfl, zext16_toNat nnn, rfl, s.readByte_writeI _⟩

/-- Settles O42. -/
theorem addToIndex : Obligations.AddToIndex := fun x s =>
  ⟨s.writeI (indexPlus s x), rfl, indexPlus_toNat s x, rfl, s.readByte_writeI _⟩

/-- Settles O43. -/
theorem pointAtGlyph : Obligations.PointAtGlyph := fun x s =>
  ⟨s.writeI (glyphAddress s x), rfl, glyphAddress_toNat s x, rfl, s.readByte_writeI _⟩

/-! ## Stores and loads of a range -/

/-- Settles O44: the three digits are one store, and the fetch at I reads its first two bytes. -/
theorem storeBcdDigits : Obligations.StoreBcdDigits := by
  intro x s hm
  refine ⟨encode_ldB_toNat x, fun h => exec_raises (failsIf_of h), fun h => ?_⟩
  obtain ⟨t, he, hbytes, hrest, hframe⟩ :=
    exec_of_store (i := .ldB x) (bytes := bcdDigits (s.readV x)) hm rfl (by rw [bcdDigits_length]; omega)
  have h0 : (t.readByte s.I.toNat).toNat = (s.readV x).toNat / 100 :=
    (congrArg BitVec.toNat (hbytes 0 (by simp))).trans (bcdDigits_hundreds _)
  have h1 : (t.readByte (s.I.toNat + 1)).toNat = (s.readV x).toNat / 10 % 10 :=
    (congrArg BitVec.toNat (hbytes 1 (by simp))).trans (bcdDigits_tens _)
  have h2 : (t.readByte (s.I.toNat + 2)).toNat = (s.readV x).toNat % 10 :=
    (congrArg BitVec.toNat (hbytes 2 (by simp))).trans (bcdDigits_ones _)
  refine ⟨t, he, h0, h1, h2, fun a ha => hrest a (by rw [bcdDigits_length]; omega), hframe, fun pc hpc => ?_⟩
  exact ⟨_, fetch_writePc_of_le t (by omega), by rw [wordOfBytes_toNat, hpc, h0, h1]⟩

/-- Settles O45. -/
theorem storeRegisters : Obligations.StoreRegisters := by
  intro x s hm
  refine ⟨fun h => exec_raises (failsIf_of h), fun h => ?_⟩
  obtain ⟨t, he, hbytes, hrest, hframe⟩ :=
    exec_of_store (i := .ldMemVx x) (bytes := regsThrough s x) hm rfl (by rw [regsThrough_length]; omega)
  refine ⟨t, he, fun k hk => ?_, fun a ha => hrest a (by rw [regsThrough_length]; omega), hframe⟩
  have hlen : k.val < (regsThrough s x).length := by
    rw [regsThrough_length]
    exact Nat.lt_succ_of_le hk
  rw [hbytes k.val hlen, regsThrough_get]
  rfl

/-- Settles O46. -/
theorem loadRegisters : Obligations.LoadRegisters := by
  intro x s
  refine ⟨fun h => exec_raises (failsIf_of h), fun h =>
    ⟨_, exec_ldVxMem_of_le h, fun k hk => ?_, fun k hk => ?_, rfl, s.readByte_writeRegs _⟩⟩
  · rw [State.readV_writeRegs_range, if_pos (Nat.lt_succ_of_le hk)]
  · rw [State.readV_writeRegs_range, if_neg (Nat.not_lt.mpr hk)]

end Sys2Proof.Machine
end

section
/-! SUPPORT. Display (44_display.md). A sprite is drawn one pixel after another; that sequence is made explicit as
a list of dots, no two of which share a place. What a list of such dots does to the buffer and to the collision
flag is said once, and `draw_sprite` is read off from it (O49, O50). Then what `00E0` and `Dxyn` do with the rest
of the state (O47, O48). -/

namespace Sys2Proof.Machine

/-! ## Dots -/

/-- One pixel of a sprite: its place on the screen, wrapped, and the sprite's bit (R113). -/
structure Dot where
  row : Fin 32
  col : Fin 64
  bit : Bool

/-- The dot stands at this place of the screen. -/
def Dot.At (p : Dot) (row : Fin 32) (col : Fin 64) : Prop := p.row = row ∧ p.col = col

/-- The two dots stand at different places. -/
def Dot.Apart (p q : Dot) : Prop := ¬ p.At q.row q.col

/-- Draw the dots one after another. -/
def Drawing.plotDots (d : Drawing) (dots : List Dot) : Drawing :=
  dots.foldl (fun d p => d.plot p.row p.col p.bit) d

/-- The dots of the listed bit-columns of one sprite row. -/
def rowDots (row : Fin 32) (x : Nat) (byte : Byte) (js : List Nat) : List Dot :=
  js.map fun j => ⟨row, colMod (x + j), spriteBit byte j⟩

/-- The dots of a sprite, in the order `draw_sprite` plots them. -/
def spriteDots (x y : Nat) : List Byte → List Dot
  | [] => []
  | byte :: rest => rowDots (rowMod y) x byte (List.range 8) ++ spriteDots x (y + 1) rest

theorem Drawing.plotBits_eq_plotDots (row : Fin 32) (x : Nat) (byte : Byte) (js : List Nat) (d : Drawing) :
    d.plotBits row x byte js = d.plotDots (rowDots row x byte js) := by
  induction js generalizing d with
  | nil => rfl
  | cons j js ih => exact ih _

theorem Drawing.plotRows_eq_plotDots (x y : Nat) (bytes : List Byte) (d : Drawing) :
    d.plotRows x y bytes = d.plotDots (spriteDots x y bytes) := by
  induction bytes generalizing d y with
  | nil => rfl
  | cons byte rest ih =>
    rw [Drawing.plotRows, ih, Drawing.plotBits_eq_plotDots]
    exact List.foldl_append.symm

theorem drawSprite_eq_plotDots (fb : Screen) (x y : Byte) (bytes : List Byte) :
    drawSprite fb x y bytes = Drawing.plotDots ⟨fb, false⟩ (spriteDots x.toNat y.toNat bytes) :=
  Drawing.plotRows_eq_plotDots _ _ _ _

/-! ## What a list of dots does -/

section
variable {dots : List Dot} {p : Dot} {row : Fin 32} {col : Fin 64}

theorem Drawing.plot_pixel_of_not_at (d : Drawing) (h : ¬ p.At row col) :
    (d.plot p.row p.col p.bit).fb.pixel row col = d.fb.pixel row col := by
  have hne : ¬ (row = p.row ∧ col = p.col) := fun ⟨hr, hc⟩ => h ⟨hr.symm, hc.symm⟩
  simp [hne]

theorem Drawing.plotDots_pixel_of_not_at (d : Drawing) (h : ∀ p ∈ dots, ¬ p.At row col) :
    (d.plotDots dots).fb.pixel row col = d.fb.pixel row col := by
  induction dots generalizing d with
  | nil => rfl
  | cons p ps ih =>
    obtain ⟨hp, hps⟩ := List.forall_mem_cons.mp h
    exact (ih _ hps).trans (d.plot_pixel_of_not_at hp)

/-- Among dots at different places, each one toggles its pixel by its bit. -/
theorem Drawing.plotDots_pixel_of_mem (d : Drawing) (hd : dots.Pairwise Dot.Apart) (hp : p ∈ dots) :
    (d.plotDots dots).fb.pixel p.row p.col = (d.fb.pixel p.row p.col ^^ p.bit) := by
  induction dots generalizing d with
  | nil => cases hp
  | cons q qs ih =>
    obtain ⟨hq, hqs⟩ := List.pairwise_cons.mp hd
    rcases List.mem_cons.mp hp with rfl | hmem
    · have hrest : ∀ q ∈ qs, ¬ q.At p.row p.col := fun q hmem ⟨hr, hc⟩ => hq q hmem ⟨hr.symm, hc.symm⟩
      calc (Drawing.plotDots _ qs).fb.pixel p.row p.col
        _ = (d.plot p.row p.col p.bit).fb.pixel p.row p.col := Drawing.plotDots_pixel_of_not_at _ hrest
        _ = (d.fb.pixel p.row p.col ^^ p.bit) := by simp
    · exact (ih _ hqs hmem).trans (by rw [d.plot_pixel_of_not_at (hq p hmem)])

/-- Among dots at different places, the collisions are those with the buffer as it was before the first. -/
theorem Drawing.plotDots_collision (d : Drawing) (hd : dots.Pairwise Dot.Apart) :
    (d.plotDots dots).collision = true ↔
      d.collision = true ∨ ∃ p ∈ dots, p.bit = true ∧ d.fb.pixel p.row p.col = true := by
  induction dots generalizing d with
  | nil => simp [Drawing.plotDots]
  | cons q qs ih =>
    obtain ⟨hq, hqs⟩ := List.pairwise_cons.mp hd
    have hsame : (∃ p ∈ qs, p.bit = true ∧ (d.plot q.row q.col q.bit).fb.pixel p.row p.col = true) ↔
        ∃ p ∈ qs, p.bit = true ∧ d.fb.pixel p.row p.col = true :=
      exists_congr fun p => and_congr_right fun hmem => by rw [d.plot_pixel_of_not_at (hq p hmem)]
    refine (ih _ hqs).trans ?_
    rw [hsame, List.exists_mem_cons_iff, Drawing.plot_collision, Bool.or_eq_true, Bool.and_eq_true,
      and_comm (a := q.bit = true), or_assoc]

end

/-! ## The dots of a sprite -/

section
variable {x y : Nat} {bytes : List Byte} {p : Dot}

/-- The dots of a sprite: bit (i, j) at row y + i and column x + j, wrapped (R113). -/
theorem mem_spriteDots : p ∈ spriteDots x y bytes ↔
    ∃ (i : Nat) (h : i < bytes.length) (j : Nat), j < 8 ∧
      p = ⟨rowMod (y + i), colMod (x + j), spriteBit bytes[i] j⟩ := by
  induction bytes generalizing y with
  | nil => simp [spriteDots]
  | cons byte rest ih =>
    rw [spriteDots, List.mem_append, ih]
    constructor
    · rintro (h | ⟨i, hi, j, hj, rfl⟩)
      · obtain ⟨j, hj, rfl⟩ := List.mem_map.mp h
        exact ⟨0, Nat.succ_pos _, j, List.mem_range.mp hj, rfl⟩
      · exact ⟨i + 1, Nat.succ_lt_succ hi, j, hj, by simp [Nat.add_assoc, Nat.add_comm 1]⟩
    · rintro ⟨i, hi, j, hj, rfl⟩
      cases i with
      | zero => exact .inl (List.mem_map.mpr ⟨j, List.mem_range.mpr hj, rfl⟩)
      | succ i =>
        exact .inr ⟨i, Nat.lt_of_succ_lt_succ hi, j, hj, by simp [Nat.add_assoc, Nat.add_comm 1]⟩

/-- The 8 columns of a sprite row do not wrap onto each other. -/
theorem rowDots_apart (row : Fin 32) (x : Nat) (byte : Byte) :
    (rowDots row x byte (List.range 8)).Pairwise Dot.Apart := by
  refine List.pairwise_map.mpr (List.pairwise_lt_range.imp_of_mem fun {j k} _ hk hjk ⟨_, hcol⟩ => ?_)
  have hk8 : k < 8 := List.mem_range.mp hk
  have hmod : (x + j) % 64 = (x + k) % 64 := congrArg Fin.val hcol
  omega

/-- Up to 32 rows do not wrap onto each other. -/
theorem spriteDots_apart (x y : Nat) (h : bytes.length ≤ 32) : (spriteDots x y bytes).Pairwise Dot.Apart := by
  induction bytes generalizing y with
  | nil => exact .nil
  | cons byte rest ih =>
    rw [List.length_cons] at h
    refine List.pairwise_append.mpr ⟨rowDots_apart _ x byte, ih _ (by omega), fun p hp q hq ⟨hrow, _⟩ => ?_⟩
    obtain ⟨j, _, rfl⟩ := List.mem_map.mp hp
    obtain ⟨i, hi, k, _, rfl⟩ := mem_spriteDots.mp hq
    have hmod : y % 32 = (y + 1 + i) % 32 := congrArg Fin.val hrow
    omega

/-- A set bit of the sprite over a pixel of value v, said of the dots and of the bits. -/
theorem exists_spriteDot_iff (fb : Screen) (v : Bool) :
    (∃ p ∈ spriteDots x y bytes, p.bit = true ∧ fb.pixel p.row p.col = v) ↔
      ∃ (i : Nat) (h : i < bytes.length) (j : Nat) (row : Fin 32) (col : Fin 64), j < 8 ∧
        row.val = (y + i) % 32 ∧ col.val = (x + j) % 64 ∧
        bytes[i].getLsbD (7 - j) = true ∧ fb.pixel row col = v := by
  constructor
  · rintro ⟨p, hp, hbit, hpix⟩
    obtain ⟨i, hi, j, hj, rfl⟩ := mem_spriteDots.mp hp
    exact ⟨i, hi, j, _, _, hj, rfl, rfl, hbit, hpix⟩
  · rintro ⟨i, hi, j, row, col, hj, hrow, hcol, hbit, hpix⟩
    obtain rfl : row = rowMod (y + i) := Fin.ext hrow
    obtain rfl : col = colMod (x + j) := Fin.ext hcol
    exact ⟨_, mem_spriteDots.mpr ⟨i, hi, j, hj, rfl⟩, hbit, hpix⟩

end

/-! ## `draw_sprite` (R113, R114) -/

section
variable {bytes : List Byte} {p : Dot}

theorem drawSprite_pixel_of_mem (fb : Screen) {x y : Byte} (h : bytes.length ≤ 15)
    (hp : p ∈ spriteDots x.toNat y.toNat bytes) :
    (drawSprite fb x y bytes).fb.pixel p.row p.col = (fb.pixel p.row p.col ^^ p.bit) := by
  rw [drawSprite_eq_plotDots]
  exact Drawing.plotDots_pixel_of_mem _ (spriteDots_apart _ _ (by omega)) hp

theorem drawSprite_pixel_of_not_at (fb : Screen) (x y : Byte) {row : Fin 32} {col : Fin 64}
    (h : ∀ p ∈ spriteDots x.toNat y.toNat bytes, ¬ p.At row col) :
    (drawSprite fb x y bytes).fb.pixel row col = fb.pixel row col := by
  rw [drawSprite_eq_plotDots]
  exact Drawing.plotDots_pixel_of_not_at _ h

theorem drawSprite_collision (fb : Screen) (x y : Byte) (h : bytes.length ≤ 15) :
    (drawSprite fb x y bytes).collision = true ↔
      ∃ p ∈ spriteDots x.toNat y.toNat bytes, p.bit = true ∧ fb.pixel p.row p.col = true := by
  rw [drawSprite_eq_plotDots, Drawing.plotDots_collision _ (spriteDots_apart _ _ (by omega))]
  simp

/-- A pixel toggled twice by the same bit, or left alone twice, is as before. -/
theorem drawSprite_drawSprite_fb (fb : Screen) (x y : Byte) (h : bytes.length ≤ 15) :
    (drawSprite (drawSprite fb x y bytes).fb x y bytes).fb = fb := by
  refine Screen.ext_pixel fun row col => ?_
  by_cases hat : ∃ p ∈ spriteDots x.toNat y.toNat bytes, p.At row col
  · obtain ⟨p, hp, rfl, rfl⟩ := hat
    rw [drawSprite_pixel_of_mem _ h hp, drawSprite_pixel_of_mem _ h hp, Bool.xor_assoc, Bool.xor_self,
      Bool.xor_false]
  · have hno : ∀ p ∈ spriteDots x.toNat y.toNat bytes, ¬ p.At row col := fun p hp hpat => hat ⟨p, hp, hpat⟩
    rw [drawSprite_pixel_of_not_at _ x y hno, drawSprite_pixel_of_not_at _ x y hno]

end

/-- Settles O49. -/
theorem drawSpritePixelByPixel : Obligations.DrawSpritePixelByPixel := by
  intro fb x y bytes hlen
  refine ⟨fun i hi j row col hj hrow hcol => ?_, fun row col hno => ?_,
    (drawSprite_collision fb x y hlen).trans (exists_spriteDot_iff fb true)⟩
  · obtain rfl : row = rowMod (y.toNat + i) := Fin.ext hrow
    obtain rfl : col = colMod (x.toNat + j) := Fin.ext hcol
    exact drawSprite_pixel_of_mem fb hlen (mem_spriteDots.mpr ⟨i, hi, j, hj, rfl⟩)
  · refine drawSprite_pixel_of_not_at fb x y fun p hp ⟨hrow, hcol⟩ => ?_
    obtain ⟨i, hi, j, hj, rfl⟩ := mem_spriteDots.mp hp
    exact hno i j hi hj ⟨congrArg Fin.val hrow.symm, congrArg Fin.val hcol.symm⟩

/-- Settles O50: the first draw inverts the pixel under each set bit. -/
theorem drawTwiceRestoresTheScreen : Obligations.DrawTwiceRestoresTheScreen := by
  intro fb x y bytes hlen
  refine ⟨drawSprite_drawSprite_fb fb x y hlen, ?_⟩
  rw [drawSprite_collision _ x y hlen, ← exists_spriteDot_iff]
  refine exists_congr fun p => and_congr_right fun hp => and_congr_right fun hbit => ?_
  rw [drawSprite_pixel_of_mem fb hlen hp, hbit, Bool.xor_true, Bool.not_eq_true']

/-! ## `00E0` and `Dxyn` (R115, R116) -/

/-- The sprite of `Dxyn` where its range fits or is empty: the bytes from I on. -/
theorem spriteBytes_of_le {s : State} {n : Fin 16} (h : n.val = 0 ∨ s.I.toNat + n.val - 1 ≤ 0xFFF) :
    spriteBytes s n = .ok ((List.range n.val).map fun k => s.readByte (s.I.toNat + k)) := by
  have hsize : Config.memSize = 0x1000 := rfl
  obtain ⟨_, hr⟩ | ⟨_, hout, _⟩ := s.readRange_cases s.I.toNat n.val
  · exact hr
  · omega

/-- Settles O47. -/
theorem clearBlanksTheScreen : Obligations.ClearBlanksTheScreen := fun s =>
  ⟨rfl, s.show Screen.blank, rfl, Screen.pixel_blank, rfl, rfl, s.readByte_show _⟩

/-- Settles O48: an empty sprite has no dot, so it neither toggles a pixel nor collides. -/
theorem drawFromMemory : Obligations.DrawFromMemory := by
  intro x y n s
  refine ⟨fun hpos hout => exec_raises (failsIf_of ⟨hpos, hout⟩), fun hin => ?_⟩
  refine ⟨_, _, by simp, fun k hk => by simp, exec_drw_of_bytes (spriteBytes_of_le hin), rfl, ?_,
    fun r hr => ?_, rfl, rfl, fun a => by simp, fun h0 => ?_⟩
  · rw [State.readV_writeCollision, if_pos rfl, flagByte_toNat]
  · rw [State.readV_writeCollision, if_neg hr, State.readV_show]
  · rw [h0, State.readV_writeCollision, if_pos rfl]
    exact ⟨rfl, rfl⟩

end Sys2Proof.Machine
end

section
/-! SUPPORT. Timers and keys (45_timers_keys.md): a timer on a tick, the index of a key, and the execute step of
the key wait for each of its answers (O52, O53, O55 to O58). -/

namespace Sys2Proof.Machine

section
variable {i : Instr} {s t : State} {x : Reg} {k : Key}

theorem formatXF_toNat (x : Reg) (kk : Byte) :
    (formatXK 0xF x kk).toNat = 0xF000 + kk.toNat + x.val * 0x100 :=
  (formatXK_toNat 0xF x kk).trans (Nat.add_right_comm 0xF000 (x.val * 0x100) kk.toNat)

/-- A cycle whose execute step leaves the run `Running` goes on to steps 4 to 8. -/
theorem step_of_exec_running (hl : s.live) (hi : fetchInstr s = .ok i)
    (he : exec i s.beginCycle = .next t) (hr : t.run = .running) : step s = .next t.complete := by
  rw [step_of_exec_next hl hi he, endCycle_of_running hr]

/-! ## The timers on a tick (R77) -/

/-- The floor of the decay at 0 is that of subtraction on the natural numbers. -/
theorem decay_toNat (b : Byte) : (decay b).toNat = b.toNat - 1 := by
  by_cases hb : b = 0
  · simp [hb, decay]
  · have hpos : b.toNat ≠ 0 := fun h => hb (BitVec.eq_of_toNat_eq h)
    rw [decay_of_ne_zero hb]
    bv_omega

theorem State.complete_timers_of_tick (h : t.input.tick = true) :
    t.complete.DT.toNat = t.DT.toNat - 1 ∧ t.complete.ST.toNat = t.ST.toNat - 1 := by
  simp [h, decay_toNat]

/-! ## The keys (R118, R121) -/

theorem keyDownAt_of_index (h : (s.readV x).toNat = k.val) : keyDownAt s x = s.keys[k.val] := by
  simp [keyDownAt, h]

theorem keyByte_toNat (k : Key) : (keyByte k).toNat = k.val :=
  Nat.mod_eq_of_lt (Nat.lt_trans k.isLt (by decide))

theorem exec_ldVxK_of_key (h : s.input.wait = .key k) :
    exec (.ldVxK x) s = .next ((s.writeV x (keyByte k)).setRun .running) := by
  simp only [exec, execLdVxK, h]

theorem exec_ldVxK_of_pending (h : s.input.wait = .pending) :
    exec (.ldVxK x) s = .next (s.setRun .awaitingKey) := by
  simp only [exec, execLdVxK, h]

theorem exec_ldVxK_of_abort (h : s.input.wait = .abort) :
    exec (.ldVxK x) s = .next (s.setRun .halted) := by
  simp only [exec, execLdVxK, h]

end

/-- Settles O52: an index up to 15 meets no failure, and the snapshot at it is the condition of both skips. -/
theorem skipOnKeySnapshot : Obligations.SkipOnKeySnapshot := by
  refine fun x s => ⟨fun h => ⟨exec_raises (failsIf_of h), exec_raises (failsIf_of h)⟩, fun k hk => ?_⟩
  have hle : ¬ (s.readV x).toNat > 15 := by omega
  have hskp : skipCondition (.skp x) s = some s.keys[k.val] := congrArg some (keyDownAt_of_index hk)
  have hsknp : skipCondition (.sknp x) s = some (!s.keys[k.val]) :=
    congrArg (fun down => some (!down)) (keyDownAt_of_index hk)
  refine ⟨fun hdown => ?_, fun hdown => ?_⟩ <;> rw [hdown] at hskp hsknp
  · exact ⟨exec_of_skip hskp (failsIf_of_not hle), exec_of_no_skip hsknp (failsIf_of_not hle)⟩
  · exact ⟨exec_of_no_skip hskp (failsIf_of_not hle), exec_of_skip hsknp (failsIf_of_not hle)⟩

/-- Settles O53. -/
theorem readDelayTimer : Obligations.ReadDelayTimer := fun x s =>
  ⟨formatXF_toNat x 0x07, s.writeV x s.DT, rfl, fun r => s.readV_writeV x r s.DT, rfl, s.readByte_writeV x s.DT⟩

/-- Settles O55. -/
theorem setTimers : Obligations.SetTimers := fun x s =>
  ⟨formatXF_toNat x 0x15, formatXF_toNat x 0x18,
    ⟨s.writeDT (s.readV x), rfl, rfl, rfl, s.readByte_writeDT _⟩,
    ⟨s.writeST (s.readV x), rfl, rfl, rfl, s.readByte_writeST _⟩⟩

/-- Settles O56: step 7 comes after the execute step, so the value written is the one that falls. -/
theorem setTimerDecaysInItsCycle : Obligations.SetTimerDecaysInItsCycle := fun s x hl htick =>
  ⟨fun hi => ⟨(s.beginCycle.writeDT (s.readV x)).complete, step_of_exec_running hl hi rfl rfl,
      State.complete_timers_of_tick htick⟩,
    fun hi => ⟨(s.beginCycle.writeST (s.readV x)).complete, step_of_exec_running hl hi rfl rfl,
      And.symm (State.complete_timers_of_tick htick)⟩⟩

/-- Settles O57. -/
theorem keyWaitAnswers : Obligations.KeyWaitAnswers := by
  refine fun x s => ⟨fun k hk => ⟨_, exec_ldVxK_of_key hk, ?_, fun r hr => ?_, rfl, rfl, ?_⟩,
    exec_ldVxK_of_pending, exec_ldVxK_of_abort⟩
  · rw [State.readV_setRun, State.readV_writeV_same, keyByte_toNat]
  · rw [State.readV_setRun, State.readV_writeV_of_ne hr]
  · exact s.readByte_writeV x (keyByte k)

/-- Settles O58, by the end of the cycle that each answer leads to: a wait and a halt go back to the state at the
start, a key goes on to steps 4 to 8. -/
theorem keyWaitSuspendsTheCycle : Obligations.KeyWaitSuspendsTheCycle := by
  intro s x hl hi
  refine ⟨fun hw => ?pending, fun hw => ?abort, fun k hw => ?key⟩ <;> rw [← s.input_beginCycle] at hw
  case pending =>
    rw [step_of_exec_next hl hi (exec_ldVxK_of_pending hw), endCycle_of_awaiting rfl]
    rfl
  case abort =>
    rw [step_of_exec_next hl hi (exec_ldVxK_of_abort hw), endCycle_of_halted rfl]
    rfl
  case key =>
    refine ⟨_, step_of_exec_running hl hi (exec_ldVxK_of_key hw) rfl, ?_, ?_, ?_⟩
    · rw [State.readV_complete, State.readV_setRun, State.readV_writeV_same, keyByte]
    · simp
    · simp

end Sys2Proof.Machine
end

section
/-! SUPPORT. Failures (60_exceptions.md): which parts of a step can end in `Faulted(kind)` (O10, O11), and the
failures of loading (O21). -/

namespace Sys2Proof.Machine

section
variable {i : Instr} {s t : State}

/-! ## Where a failure can come from -/

/-- Steps 4 to 8 of a cycle raise nothing: they end it `Running` or `Halted(Quit)` (R79). -/
theorem State.complete_run_ne_faulted (t : State) (k : FailureKind) : t.complete.run ≠ .faulted k := by
  rw [State.complete_run]
  split <;> simp

/-- An execute step that completes does not end in a failure: it keeps the run state, except that the key wait
sets one of its own three (R121). -/
theorem Effect.run_ne_faulted (h : Effect i s t) (hr : s.run = .running) (k : FailureKind) :
    t.run ≠ .faulted k := by
  cases h with
  | data _ h =>
    cases h with
    | keyAnswered | keyPending | keyAborted => simp
    | register | flagged | registers | index | store | screen | sprite | delayTimer | soundTimer => simp [hr]
  | skip | jump | call | ret => simp [hr]

/-! ## The program load -/

theorem State.load_bytes_too_large {image : List Byte} (h : image.length > 3584) (s : State) :
    s.load (.bytes image) = .error .programTooLarge := by
  have hfits : ¬ imageFits image = true := fun hf => Nat.not_le_of_gt h (of_decide_eq_true hf)
  exact if_neg hfits

end

/-- Settles O10, by the four ends of a cycle: only the raised one is faulted, and it is the state at the start with
its run state changed. -/
theorem failingCycleLeavesTheState : Obligations.FailingCycleLeavesTheState := by
  intro s u kind hstep
  refine step_keeps (P := fun u => u.run = .faulted kind → u = s.raise kind) hstep (fun k => ?raised) ?halted
    (fun _ _ _ _ _ => ?waiting) (fun _ t _ _ _ => ?done)
  case raised =>
    rintro ⟨⟩
    rfl
  case halted => exact nofun
  case waiting => exact nofun
  case done => exact fun h => absurd h (t.complete_run_ne_faulted kind)

/-- Settles O11: where the table gives a failure the step raises it; where it gives none the step completes, and a
step that completes is not faulted. -/
theorem eachInstructionRaisesItsFailureOnly : Obligations.EachInstructionRaisesItsFailureOnly := by
  refine fun i s hr => ⟨fun _ => exec_raises, fun hf => ?_⟩
  obtain ⟨t, he, h⟩ := exec_completes hf
  exact ⟨t, he, h.run_ne_faulted hr⟩

/-- Settles O21: an image that boots is not too large, since one that is does not load. -/
theorem loadFailuresPreventExecution : Obligations.LoadFailuresPreventExecution := by
  intro font image
  have htoo_large (h : image.length > 3584) : boot font (.bytes image) = .error .programTooLarge :=
    State.load_bytes_too_large h _
  refine ⟨htoo_large, rfl, fun t hboot => Nat.le_of_not_gt fun h => ?_⟩
  rw [htoo_large h] at hboot
  cases hboot

end Sys2Proof.Machine
end

section
/-! SUPPORT. Reset and hazards (70_reset_and_hazards.md): what a cycle renders (O51), that an instruction does not
see the decay of its own cycle (O54), and the entry point (O18). -/

namespace Sys2Proof.Machine

section
variable {i : Instr} {s t : State}

/-! ## The redraw flag (R73) -/

theorem draws_iff : draws i = true ↔ i = .cls ∨ ∃ x y n, i = .drw x y n := by
  cases i <;> simp [draws]

/-- An instruction that draws does not wait for a key. -/
theorem answered_of_draws (hd : draws i = true) : answered i s := by
  obtain rfl | ⟨x, y, n, rfl⟩ := draws_iff.mp hd <;> exact trivial

/-- `Dxyn` meets no failure exactly where its range is empty or fits (R116). -/
theorem failureOf_drw_eq_none {x y : Reg} {n : Fin 16} :
    failureOf (.drw x y n) s = none ↔ n.val = 0 ∨ s.I.toNat + n.val - 1 ≤ 0xFFF := by
  simp only [failureOf, failsIf, ite_eq_right_iff, decide_eq_true_eq, reduceCtorEq, imp_false]
  omega

/-- An instruction that draws and does not fail flags a redraw. -/
theorem exec_redraw_of_draws (he : exec i s = .next t) (hd : draws i = true) (hf : failureOf i s = none) :
    t.redraw = true := by
  obtain rfl | ⟨x, y, n, rfl⟩ := draws_iff.mp hd
  · cases he
    exact s.show_redraw _
  · rw [exec_drw_of_bytes (spriteBytes_of_le (failureOf_drw_eq_none.mp hf))] at he
    cases he
    simp

/-- An instruction that does not draw leaves the redraw flag, whether it fails or completes. -/
theorem exec_redraw_of_not_draws (he : exec i s = .next t) (hd : draws i = false) : t.redraw = s.redraw := by
  obtain ⟨k, _, rfl⟩ | ⟨_, h⟩ := exec_next_cases he
  · exact s.raise_redraw k
  · exact (h.screen_eq hd).2

/-! ## The ends of a cycle -/

/-- A failure of the instruction is the failure of the cycle (R129). -/
theorem step_of_failureOf {k : FailureKind} (hl : s.live) (hi : fetchInstr s = .ok i)
    (hf : failureOf i s = some k) : step s = .next (s.raise k) := by
  rw [step_of_exec_next hl hi (exec_raises hf), endCycle_of_faulted (State.raise_run _ k)]

/-- A completed cycle renders the buffer it leaves, if a redraw was flagged. -/
theorem State.complete_frames_of_redraw (h : t.redraw = true) :
    t.complete.frames = t.complete.FB :: t.frames := by
  simp [h]

theorem State.complete_frames_of_no_redraw (h : t.redraw = false) : t.complete.frames = t.frames := by
  simp [h]

theorem State.complete_DT_of_no_tick (h : t.input.tick = false) : t.complete.DT = t.DT := by
  simp [h]

/-! ## What a cycle renders (R117, R157) -/

variable {u : State}

theorem step_frames_of_draws (hl : s.live) (hi : fetchInstr s = .ok i) (hstep : step s = .next u)
    (hd : draws i = true) (hf : failureOf i s = none) : u.frames = u.FB :: s.frames := by
  obtain ⟨t, he, _, hdone⟩ := step_completes hl hi hf (answered_of_draws hd)
  rw [hdone] at hstep
  cases hstep
  obtain ⟨_, hframes, _⟩ := exec_ports_eq he
  rw [State.complete_frames_of_redraw (exec_redraw_of_draws he hd hf), hframes, State.beginCycle_frames]

/-- Of the four ends of a cycle only the completed one can render, and the flag it asks for was cleared at the
start of the cycle. -/
theorem step_frames_of_not_draws (hi : fetchInstr s = .ok i) (hstep : step s = .next u)
    (hd : draws i = false) : u.frames = s.frames := by
  refine step_keeps (P := fun u => u.frames = s.frames) hstep (fun k => ?raised) ?halted
    (fun _ _ _ _ _ => ?waiting) (fun j t hj he _ => ?done)
  case raised | halted | waiting => rfl
  case done =>
    obtain rfl : i = j := Except.ok.inj (hi.symm.trans hj)
    obtain ⟨_, hframes, _⟩ := exec_ports_eq he
    have hflag : t.redraw = false := (exec_redraw_of_not_draws he hd).trans s.beginCycle_redraw
    rw [State.complete_frames_of_no_redraw hflag, hframes, State.beginCycle_frames]

theorem step_frames_of_failureOf {k : FailureKind} (hl : s.live) (hi : fetchInstr s = .ok i)
    (hstep : step s = .next u) (hf : failureOf i s = some k) : u.frames = s.frames := by
  rw [step_of_failureOf hl hi hf] at hstep
  cases hstep
  exact s.raise_frames k

end

/-- Settles O51. -/
theorem drawIsRenderedInItsCycle : Obligations.DrawIsRenderedInItsCycle := fun _ _ _ hl hi hstep =>
  ⟨step_frames_of_draws hl hi hstep, step_frames_of_not_draws hi hstep,
    fun _ => step_frames_of_failureOf hl hi hstep⟩

/-- Settles O54: step 7 comes after the execute step, so Vx has the DT from before it falls. -/
theorem readPrecedesTheDecay : Obligations.ReadPrecedesTheDecay := by
  intro s x hl hi
  refine ⟨(s.beginCycle.writeV x s.DT).complete, step_of_exec_running hl hi rfl rfl, ?_, fun htick => ?_,
    fun htick => ?_⟩
  · rw [State.readV_complete, State.readV_writeV_same]
  · exact And.left (State.complete_timers_of_tick htick)
  · exact State.complete_DT_of_no_tick htick

/-! ## The entry point (R148) -/

theorem State.pc_construct (font : Config.Font) : (State.construct font).pc = 0x200 := rfl

theorem State.run_construct (font : Config.Font) : (State.construct font).run = .running := rfl

/-- Settles O18: the reset state is the construction with the default font. -/
theorem constructionEntryPoint : Obligations.ConstructionEntryPoint :=
  ⟨fun font => ⟨State.pc_construct font, State.run_construct font⟩, State.pc_construct defaultFont,
    State.run_construct defaultFont⟩

end Sys2Proof.Machine
end
